-- ==== Sys2Proof/Word.lean ====
section
/-!
DEFINITION. The words of zinc_cube CORE: bytes, the 24-, 32- and 64-bit words of its ports, and a colour as three channels.
-/

namespace Sys2Proof

/-- An 8-bit value: a colour channel, a gamma entry, a byte of the output stream (spec/00_scope.md R11). -/
abbrev Byte := BitVec 8

/-- A packed colour, as a colour port or the COL field carries it (spec/20_memory.md R55). -/
abbrev Word24 := BitVec 24

/-- A 32-bit value: the ARG field (R12, R72) or the bits of a binary32 factor (R82). -/
abbrev Word32 := BitVec 32

/-- A command word (spec/30_encoding.md R70). -/
abbrev Word64 := BitVec 64

/-- A colour: three independent 8-bit channels (spec/00_scope.md R15, R19). -/
structure Color where
  r : Byte
  g : Byte
  b : Byte
deriving DecidableEq, Repr, Inhabited

end Sys2Proof
end

