-- ==== Sys2Proof/Config.lean ====
section
/-!
DEFINITION. What one build of the block fixes (ENC, GAMMA), the environment's open parameters, and the free values:
constants with no body, so that no proof can see what they are.
-/

namespace Sys2Proof

/-- The encoding variant, fixed when the block is built (spec/00_scope.md R8). -/
inductive Enc where
  | bytePerBit
  | nibblePerBit
deriving DecidableEq, Repr, Inhabited

/-- The content of a gamma table, a function from 8-bit values to 8-bit values (spec/00_scope.md R10). -/
abbrev GammaTable := Byte → Byte

/-- The three properties the spec gives of the gamma table, and no others (spec/40_color_model.md R100). -/
def GammaTable.Admissible (g : GammaTable) : Prop :=
  g 0 = 0 ∧ g 255 = 255 ∧ ∀ i : Nat, i < 255 → (g (BitVec.ofNat 8 i)).toNat ≤ (g (BitVec.ofNat 8 (i + 1))).toNat

/-- The greatest of 0 and the values `raw` gives at 1 to `n`. -/
def risingMax (raw : Byte → Byte) : Nat → Nat
  | 0 => 0
  | n + 1 => max (risingMax raw n) (raw (BitVec.ofNat 8 (n + 1))).toNat

/-- The admissible table that `raw` names: 0 at 0, 255 at 255, and the running maximum of `raw` between.
Every result is admissible, and an admissible table names itself, so the tables of this form are exactly those of R100
(notes/assumptions/8.md). -/
def gammaOf (raw : Byte → Byte) : GammaTable := fun v =>
  if v = 255 then 255 else BitVec.ofNat 8 (risingMax raw v.toNat)

namespace Config

/-- The build's ENC: an open parameter (R8, U2 of spec/93_implementation_defined.md; notes/assumptions/9.md). -/
opaque enc : Enc

/-- Whatever fixes the entries of the build's gamma table that no source gives (U1; notes/assumptions/8.md). -/
opaque gammaRaw : Byte → Byte

/-- The build's gamma table: some table with the properties of R100, the same one for the port and FLUSH (R30, R102). -/
def gamma : GammaTable := gammaOf gammaRaw

/-- `TX_BIT_RATE`, the transmitter's bit clock: open, read by no rule of the block (R13; notes/assumptions/10.md). -/
opaque txBitRate : Nat

/-- `LATCH_GAP`, the idle time the LEDs need between frames: open, read by no rule of the block (R13, R187;
notes/assumptions/10.md). -/
opaque latchGap : Nat

/-- A free value: what frame-buffer word `i` holds after the `n`-th draw's cycle with rst = 1
(R232: "each FB word holds a value that is unspecified"; notes/assumptions/4.md). -/
opaque freeVoxel : Nat → Nat → Color

/-- A free value: what TX_DATA holds, at draw `n`, where the spec leaves it unspecified (R31, R183; notes/assumptions/5.md),
and the byte offered at a position outside the frame, in states no run reaches (notes/assumptions/17.md). -/
opaque freeTxData : Nat → Byte

end Config

end Sys2Proof
end

