-- ==== Sys2Proof/Syntax.lean ====
section
/-!
DEFINITION. The instructions: one constructor for each row of spec/opcode_table.json.
-/

namespace Sys2Proof

/-- The commands of the command port (spec/30_encoding.md R74, R79), the illegal space (R77) and the operations of the four
function ports (R80). An axis value or an index is the whole 32-bit ARG: its range is checked when the command runs (R72). -/
inductive Instr where
  /-- INIT: set every voxel to the background colour (spec/42_frame_buffer.md R142). -/
  | init (c : Color)
  /-- FILL: overwrite every voxel (R143). -/
  | fill (c : Color)
  /-- SET: overwrite the voxel of an index (R144). -/
  | set (idx : Word32) (c : Color)
  /-- FILLP: overwrite a panel, the voxels with x = p (R145). -/
  | fillp (p : Word32) (c : Color)
  /-- FILLS: overwrite a slice, the voxels with y = s (R146). -/
  | fills (s : Word32) (c : Color)
  /-- FILLL: overwrite a layer, the voxels with z = l (R147). -/
  | filll (l : Word32) (c : Color)
  /-- FLUSH: send the frame on the byte-stream port (spec/43_serializer.md R170). -/
  | flush
  /-- ILLEGAL: a command word whose OP is in no other row (R77, R203). -/
  | illegal (op : Byte)
  /-- GAMMA: use the gamma lookup port (spec/40_color_model.md R101). -/
  | gamma (v : Byte)
  /-- WHEEL: use the colour-wheel port (R103). -/
  | wheel (p : Byte)
  /-- FADE: use the brightness-scaling port (R105): a packed colour and the bits of a binary32 factor. -/
  | fade (rgb : Word24) (factor : Word32)
  /-- ENCODE: use the encoder port (spec/41_encoder.md R127): a packed colour. -/
  | encode (rgb : Word24)
deriving DecidableEq, Repr

end Sys2Proof
end

