-- ==== Sys2Proof/Machine/State.lean ====
section
/-!
DEFINITION. The state of the block and of its interface, as plain data, and the state after reset.
-/

namespace Sys2Proof.Machine

/-- The error codes (spec/60_exceptions.md R200). Code 3 is never written. -/
inductive ErrCode where
  | ok
  | indexOutOfRange
  | illegalCommand
deriving DecidableEq, Repr

/-- STATUS (spec/10_state.md R25): BUSY is bit 0, ERR is bits 2:1. Bits 7:3 are hardwired 0 and are not stored. -/
structure Status where
  busy : Bool
  err : BitVec 2
deriving DecidableEq, Repr

/-- The input levels of the four function ports (spec/10_state.md R37): what the host drives, no state of the block. -/
structure PortPins where
  gammaIn : Byte
  wheelPos : Byte
  fadeRgb : Word24
  fadeFactor : Word32
  encRgb : Word24
deriving DecidableEq, Repr

/-- One use of a function port by the host (R37, R248 "drive a function port"). -/
inductive PortUse where
  | gamma (v : Byte)
  | wheel (p : Byte)
  | fade (rgb : Word24) (factor : Word32)
  | encode (rgb : Word24)
deriving DecidableEq, Repr

/-- What the host does in one cycle (spec/70_reset_and_hazards.md R248; notes/assumptions/1.md). -/
inductive HostMove where
  /-- Nothing. Reading STATUS is this too: a read has no side effect (R29). -/
  | wait
  /-- `cmd_valid = 1` with this `cmd_word` (R34). -/
  | offer (w : Word64)
  /-- Drive the inputs of a function port (R37). -/
  | drive (p : PortUse)
  /-- `rst = 1` (R33, R230). -/
  | rst
deriving DecidableEq, Repr

/-- The state: what spec/10_state.md R20 lists, the levels on the function ports' inputs (R37), and the model's own fields
(the environment's coming moves, the bytes transferred, the counter of free values). -/
structure State where
  /-- FB[0..63] (R22). -/
  fb : Vector Color 64
  /-- DEF[0..63], the model-only shadow bits (R27). -/
  defined : Vector Bool 64
  /-- STATUS (R25). -/
  status : Status
  /-- SER_VOX (R31). -/
  serVox : BitVec 6
  /-- SER_BYTE (R31). -/
  serByte : BitVec 5
  /-- TX_VALID (R31). -/
  txValid : Bool
  /-- TX_DATA (R31). -/
  txData : Byte
  /-- The function ports' input levels (R37). -/
  pins : PortPins
  /-- The host's coming moves, next first. -/
  host : List HostMove
  /-- The transmitter's coming answers on `tx_ready`, next first, one for each cycle in which a byte is offered (R36). -/
  txReady : List Bool
  /-- The bytes transferred so far, oldest first: what a model observes (spec/43_serializer.md R188). -/
  transferred : List Byte
  /-- How many free values have been drawn (notes/assumptions/7.md). -/
  draws : Nat
deriving DecidableEq, Repr

/-- Why the machine stops. -/
inductive Fault where
  /-- Raised by FLUSH, at its acceptance, when some voxel has not been written since reset (spec/43_serializer.md R171,
  spec/60_exceptions.md R206). Safe: the hardware goes on and sends the bits its storage holds. -/
  | uninitialisedVoxel
deriving DecidableEq, Repr

/-- Why the model gives no meaning. -/
inductive Refusal where
  /-- Raised by `exec` for an instruction that has no meaning yet; no instruction of this model is one. Safe. -/
  | notModelled (mnemonic : String)
deriving DecidableEq, Repr

/-- The state after reset (spec/10_state.md R38): DEF, BUSY, ERR, SER_VOX, SER_BYTE and TX_VALID are 0 by the spec. The spec
gives FB, TX_DATA and the ports' inputs no value: black and zeros are the model's DESIGN CHOICE (notes/assumptions/3.md, 5.md,
6.md). No environment move is pending and no byte has been transferred (2.md, 13.md). -/
def State.reset : State where
  fb := Vector.replicate 64 ⟨0, 0, 0⟩
  defined := Vector.replicate 64 false
  status := ⟨false, 0⟩
  serVox := 0
  serByte := 0
  txValid := false
  txData := 0
  pins := ⟨0, 0, 0, 0, 0⟩
  host := []
  txReady := []
  transferred := []
  draws := 0

end Sys2Proof.Machine
end

