-- ==== Sys2Proof/Machine/Flags.lean ====
section
/-!
DEFINITION. STATUS: the register as the host reads it and the writes of its two fields. The block has no other flag
(spec/10_state.md R39).
-/

namespace Sys2Proof.Machine

/-- The two bits of ERR for a code (spec/60_exceptions.md R200). -/
def errBits : ErrCode → BitVec 2
  | .ok => 0
  | .indexOutOfRange => 1
  | .illegalCommand => 2

/-- STATUS as `status[7:0]` shows it (spec/10_state.md R25, R35): bits 7:3 read as 0, ERR is 2:1, BUSY is 0. -/
def statusWord (st : Status) : Byte := (0 : BitVec 5) ++ st.err ++ BitVec.ofBool st.busy

/-- `STATUS.ERR <- code`. -/
def setErr (code : ErrCode) (s : State) : State := { s with status := { s.status with err := errBits code } }

/-- `STATUS.BUSY <- b`. -/
def setBusy (b : Bool) (s : State) : State := { s with status := { s.status with busy := b } }

end Sys2Proof.Machine
end

