-- ==== Sys2Proof/WellFormed.lean ====
section
/-!
DEFINITION. Which terms of Instr stand for something on this hardware.
-/

namespace Sys2Proof

/-- OP is one of the seven of the opcode map (spec/30_encoding.md R76). -/
def isMappedOp (op : Byte) : Bool := 1 ≤ op.toNat && op.toNat ≤ 7

/-- ILLEGAL stands only for an OP outside the opcode map (R77). Every other field admits all its values: a range is checked
when the command runs (R72), every 24-bit value is a colour (R73), every bit pattern is a factor (R82). -/
def Instr.wellFormed : Instr → Bool
  | .init _ => true
  | .fill _ => true
  | .set _ _ => true
  | .fillp _ _ => true
  | .fills _ _ => true
  | .filll _ _ => true
  | .flush => true
  | .illegal op => !isMappedOp op
  | .gamma _ => true
  | .wheel _ => true
  | .fade _ _ => true
  | .encode _ => true

/-- The instruction is accepted through the command port, as a word; the others are the function ports' (R80). -/
def Instr.isCommand : Instr → Bool
  | .init _ => true
  | .fill _ => true
  | .set _ _ => true
  | .fillp _ _ => true
  | .fills _ _ => true
  | .filll _ _ => true
  | .flush => true
  | .illegal _ => true
  | .gamma _ => false
  | .wheel _ => false
  | .fade _ _ => false
  | .encode _ => false

end Sys2Proof
end

