-- ==== Sys2Proof/Decode.lean ====
section
/-!
DEFINITION. The command word: the packing of a colour, the decoder, total on all 2^64 words, and the encoder.
-/

namespace Sys2Proof

/-- A colour packed with red in bits 23:16, green in 15:8, blue in 7:0 (spec/20_memory.md R55). -/
def packColor (c : Color) : Word24 := c.r ++ c.g ++ c.b

/-- The three channels of a packed colour (R55, R73). -/
def unpackColor (w : Word24) : Color := ⟨w.extractLsb' 16 8, w.extractLsb' 8 8, w.extractLsb' 0 8⟩

/-- OP, bits 63:56 of a command word (spec/30_encoding.md R70). -/
def opField (w : Word64) : Byte := w.extractLsb' 56 8

/-- ARG, bits 55:24 of a command word (R70, R72). -/
def argField (w : Word64) : Word32 := w.extractLsb' 24 32

/-- COL, bits 23:0 of a command word, as a colour (R70, R73). -/
def colField (w : Word64) : Color := unpackColor (w.extractLsb' 0 24)

/-- The decoder (R79): OP alone selects the command (R71), every OP outside the map is ILLEGAL (R77). -/
def decode (w : Word64) : Instr :=
  match (opField w).toNat with
  | 1 => .init (colField w)
  | 2 => .fill (colField w)
  | 3 => .set (argField w) (colField w)
  | 4 => .fillp (argField w) (colField w)
  | 5 => .fills (argField w) (colField w)
  | 6 => .filll (argField w) (colField w)
  | 7 => .flush
  | _ => .illegal (opField w)

/-- A command word from its three fields (R70, R85). -/
def commandWord (op : Byte) (arg : Word32) (col : Word24) : Word64 := op ++ arg ++ col

/-- The encoder (R76, R85): an ignored field is written as zero (R75). A function port has no command word (R80). -/
def encode : Instr → Option Word64
  | .init c => some (commandWord 0x01 0 (packColor c))
  | .fill c => some (commandWord 0x02 0 (packColor c))
  | .set idx c => some (commandWord 0x03 idx (packColor c))
  | .fillp p c => some (commandWord 0x04 p (packColor c))
  | .fills s c => some (commandWord 0x05 s (packColor c))
  | .filll l c => some (commandWord 0x06 l (packColor c))
  | .flush => some (commandWord 0x07 0 0)
  | .illegal op => some (commandWord op 0 0)
  | .gamma _ => none
  | .wheel _ => none
  | .fade _ _ => none
  | .encode _ => none

/-- The `match` column of spec/opcode_table.json for a command, and OP << 56 for the illegal space (R76, R77). -/
def tableMatch : Instr → Option Word64
  | .init _ => some 0x0100000000000000
  | .fill _ => some 0x0200000000000000
  | .set _ _ => some 0x0300000000000000
  | .fillp _ _ => some 0x0400000000000000
  | .fills _ _ => some 0x0500000000000000
  | .filll _ _ => some 0x0600000000000000
  | .flush => some 0x0700000000000000
  | .illegal op => some (op.setWidth 64 <<< 56)
  | .gamma _ => none
  | .wheel _ => none
  | .fade _ _ => none
  | .encode _ => none

/-- The `mask` column of spec/opcode_table.json: OP alone (R71, R76). -/
def tableMask : Word64 := 0xFF00000000000000

/-- The command word of `nbits` bits numbered as the table numbers them; the bits above `nbits` are zero. The command port is a
parallel bus of 64 bits (spec/20_memory.md R58), so the number is the word. -/
def tableWord (nbits w : Nat) : Word64 := BitVec.ofNat 64 (w % 2 ^ nbits)

/-- What the decoder reads from a word of the opcode table; none where the word is longer than a command (R70). A function port
has no word, so none of the four is ever read from one (R80; notes/assumptions/11.md). -/
def decodeTableWord (nbits w : Nat) : Option Instr :=
  if nbits ≤ 64 then some (decode (tableWord nbits w)) else none

end Sys2Proof
end

