-- ==== Sys2Proof/Machine/Operands.lean ====
section
/-!
DEFINITION. Operand forms: the voxel address decoder, the panels, slices and layers, and the range checks of ARG.
-/

namespace Sys2Proof.Machine

/-- The index of the voxel at (x, y, z) (spec/20_memory.md R51). -/
def voxelIndex (x y z : Nat) : Nat := x + 4 * y + 16 * z

/-- The x coordinate of voxel i, `i[1:0]` (R51): which panel it is in (R53). -/
def voxelX (i : Nat) : Nat := i % 4

/-- The y coordinate of voxel i, `i[3:2]` (R51): which slice it is in (R53). -/
def voxelY (i : Nat) : Nat := i / 4 % 4

/-- The z coordinate of voxel i, `i[5:4]` (R51): which layer it is in (R53). -/
def voxelZ (i : Nat) : Nat := i / 16 % 4

/-- A set of voxel indices. -/
abbrev VoxelSet := Nat → Bool

/-- All 64 indices: what INIT and FILL write (spec/42_frame_buffer.md R142, R143). -/
def allVoxels : VoxelSet := fun _ => true

/-- The one index SET writes (R144). -/
def oneVoxel (idx : Nat) : VoxelSet := fun i => i == idx

/-- PANEL(p) (spec/20_memory.md R54). -/
def panel (p : Nat) : VoxelSet := fun i => voxelX i == p

/-- SLICE(s) (R54). -/
def slice (s : Nat) : VoxelSet := fun i => voxelY i == s

/-- LAYER(l) (R54). -/
def layer (l : Nat) : VoxelSet := fun i => voxelZ i == l

/-- ARG is a voxel index, 0 to 63 (R62, spec/60_exceptions.md R202). -/
def indexInRange (arg : Word32) : Bool := arg.toNat < 64

/-- ARG is an axis value, 0 to 3 (R62, R202). -/
def axisInRange (arg : Word32) : Bool := arg.toNat < 4

end Sys2Proof.Machine
end

