-- ==== Sys2Proof/Machine/Ops.lean ====
section
/-!
DEFINITION. The named operations the meanings share: writing voxels, completing a command, raising an error, the views of the
ports, the cycle with rst = 1.
-/

namespace Sys2Proof.Machine

/-- How a step or a meaning ends. -/
abbrev Result := Host.Outcome State Fault Refusal

/-- The 64 values of a function of the voxel index, as a vector. -/
def voxels {α : Type} (f : Fin 64 → α) : Vector α 64 := ⟨⟨List.ofFn f⟩, by simp⟩

/-- `for i in vs: FB[i] <- c; DEF[i] <- 1`: whole words, no other word (spec/20_memory.md R60, spec/10_state.md R27). -/
def writeVoxels (vs : VoxelSet) (c : Color) (s : State) : State :=
  { s with
    fb := voxels fun i => if vs i.val then c else s.fb[i]
    defined := voxels fun i => if vs i.val then true else s.defined[i] }

/-- A mutator that succeeds: its words and `STATUS.ERR <- OK`, in one step (spec/42_frame_buffer.md R141 to R147). -/
def completeWrite (vs : VoxelSet) (c : Color) (s : State) : Result := .next (setErr .ok (writeVoxels vs c s))

/-- `raise Error(code)`: writes STATUS.ERR, changes nothing else, and completes the command (spec/60_exceptions.md R201). This
is all there is of taking an exception on this block: no state is saved and control goes nowhere (R209), so there is nothing to
return from (R210; notes/assumptions/19.md). -/
def raiseError (code : ErrCode) (s : State) : Result := .next (setErr code s)

/-- A fill of one axis: the range check, then the sixteen words (R145 to R147). -/
def fillAxis (group : Nat → VoxelSet) (arg : Word32) (c : Color) (s : State) : Result :=
  if axisInRange arg then completeWrite (group arg.toNat) c s else raiseError .indexOutOfRange s

/-- Every DEF bit is 1 (R171). -/
def allDefined (s : State) : Bool := s.defined.toList.all id

/-- Take the next free value: the counter goes on (notes/assumptions/7.md). -/
def drawNext (s : State) : State := { s with draws := s.draws + 1 }

/-- TX_DATA holds an unspecified value (spec/10_state.md R31, spec/43_serializer.md R183; notes/assumptions/5.md). -/
def loseTxData (s : State) : State := drawNext { s with txData := Config.freeTxData s.draws }

/-- The serializer between frames: it offers no byte and both counters hold 0 (R31, R183). -/
def idleSerializer (s : State) : State := { s with serVox := 0, serByte := 0, txValid := false }

/-- The state elements in a cycle with rst = 1 (spec/70_reset_and_hazards.md R231, R232): BUSY, ERR, SER_VOX, SER_BYTE,
TX_VALID and DEF are 0, and every FB word and TX_DATA are unspecified (notes/assumptions/4.md, 5.md). The environment's lists,
the ports' inputs and the bytes already transferred are no state of the block. -/
def applyReset (s : State) : State :=
  loseTxData (idleSerializer
    { s with
      fb := voxels fun i => Config.freeVoxel s.draws i.val
      defined := Vector.replicate 64 false
      status := ⟨false, errBits .ok⟩ })

/-- `rst` in this cycle (R33). -/
def rstIn (s : State) : Bool :=
  match s.host with
  | .rst :: _ => true
  | _ => false

/-- `cmd_word` in this cycle where `cmd_valid = 1` (R34). -/
def cmdIn (s : State) : Option Word64 :=
  match s.host with
  | .offer w :: _ => some w
  | _ => none

/-- `cmd_ready = NOT rst AND NOT STATUS.BUSY` (R34, R140). -/
def cmdReadyOut (s : State) : Bool := !rstIn s && !s.status.busy

/-- `status[7:0]` (R35). -/
def statusOut (s : State) : Byte := statusWord s.status

/-- `tx_valid`: TX_VALID (R36), and 0 in every cycle with rst = 1 (R230; notes/assumptions/14.md). -/
def txValidOut (s : State) : Bool := !rstIn s && s.txValid

/-- `tx_data`: TX_DATA (R36). It means nothing while `tx_valid = 0` (R183). -/
def txDataOut (s : State) : Byte := s.txData

/-- `tx_ready` in this cycle: the head of the transmitter's answers, and not ready where it has given none
(notes/assumptions/2.md). -/
def txReadyIn (s : State) : Bool := s.txReady.headD false

/-- The host's move of this cycle is over. -/
def endHostMove (s : State) : State := { s with host := s.host.tail }

/-- The transmitter's answer of this cycle is over. -/
def endTxAnswer (s : State) : State := { s with txReady := s.txReady.tail }

/-- The host changes the function ports' inputs (R37): no state of the block changes. -/
def drivePins (pins : PortPins) (s : State) : State := { s with pins := pins }

/-- A host's use of a port, as an instruction (spec/30_encoding.md R80). -/
def portInstr : PortUse → Instr
  | .gamma v => .gamma v
  | .wheel p => .wheel p
  | .fade rgb factor => .fade rgb factor
  | .encode rgb => .encode rgb

end Sys2Proof.Machine
end

