-- ==== Sys2Proof/Machine/FrameBuffer.lean ====
section
/-!
DEFINITION. The frame buffer's commands INIT, FILL, SET, FILLP, FILLS, FILLL, and the illegal space.
-/

namespace Sys2Proof.Machine

/-- INIT (spec/42_frame_buffer.md R142): all 64 voxels. -/
def execInit (c : Color) (s : State) : Result := completeWrite allVoxels c s

/-- FILL (R143): all 64 voxels. -/
def execFill (c : Color) (s : State) : Result := completeWrite allVoxels c s

/-- SET (R144): one voxel, and IndexOutOfRange with no write where the index is 64 or more. -/
def execSet (idx : Word32) (c : Color) (s : State) : Result :=
  if indexInRange idx then completeWrite (oneVoxel idx.toNat) c s else raiseError .indexOutOfRange s

/-- FILLP (R145): PANEL(p), the voxels with x = p. -/
def execFillp (p : Word32) (c : Color) (s : State) : Result := fillAxis panel p c s

/-- FILLS (R146): SLICE(s), the voxels with y = s. -/
def execFills (y : Word32) (c : Color) (s : State) : Result := fillAxis slice y c s

/-- FILLL (R147): LAYER(l), the voxels with z = l. -/
def execFilll (l : Word32) (c : Color) (s : State) : Result := fillAxis layer l c s

/-- ILLEGAL (spec/60_exceptions.md R203): IllegalCommand, whatever OP, ARG and COL hold (R204). -/
def execIllegal (_op : Byte) (s : State) : Result := raiseError .illegalCommand s

end Sys2Proof.Machine
end

