-- ==== Sys2Proof/Machine/ColorModel.lean ====
section
/-!
DEFINITION. The colour model: gamma correction, the colour wheel, the fade, and the function ports GAMMA, WHEEL and FADE.
-/

namespace Sys2Proof.Machine

/-- Γ, one lookup per channel in the same table (spec/40_color_model.md R102). -/
def gammaColor (g : GammaTable) (c : Color) : Color := ⟨g c.r, g c.g, g c.b⟩

/-- `gamma_out[7:0]`, a function of `gamma_in` and the table alone (R101, spec/10_state.md R37). -/
def gammaOut (s : State) : Byte := Config.gamma s.pins.gammaIn

/-- GAMMA (R101): drive `gamma_in`; the result stands on `gamma_out` (notes/assumptions/11.md). -/
def execGamma (v : Byte) (s : State) : Result := .next (drivePins { s.pins with gammaIn := v } s)

/-- A colour from three channel values, exact where each is at most 255 (R104). -/
def colorOfNats (r g b : Nat) : Color := ⟨BitVec.ofNat 8 r, BitVec.ofNat 8 g, BitVec.ofNat 8 b⟩

/-- The colour wheel, in exact integer arithmetic (R103, R104). -/
def wheelColor (p : Byte) : Color :=
  let n := p.toNat
  if n < 85 then colorOfNats (3 * n) (255 - 3 * n) 0
  else if n < 170 then colorOfNats (255 - 3 * (n - 85)) 0 (3 * (n - 85))
  else colorOfNats 0 (3 * (n - 170)) (255 - 3 * (n - 170))

/-- `wheel_rgb[23:0]` (R103). -/
def wheelOut (s : State) : Word24 := packColor (wheelColor s.pins.wheelPos)

/-- WHEEL (R103): drive `wheel_pos`; the result stands on `wheel_rgb`. -/
def execWheel (p : Byte) (s : State) : Result := .next (drivePins { s.pins with wheelPos := p } s)

/-- A binary32 value. A finite one is `u` units of 2^-149, the spacing of the subnormals, so every finite value is exact
(notes/assumptions/18.md). -/
inductive Binary32 where
  | nan
  | inf (negative : Bool)
  | finite (negative : Bool) (u : Nat)
deriving DecidableEq, Repr

/-- The value of 32 bits: sign 31, exponent 30:23, fraction 22:0 (spec/30_encoding.md R82). -/
def decodeBinary32 (w : Word32) : Binary32 :=
  let negative := w.getLsbD 31
  let exponent := (w.extractLsb' 23 8).toNat
  let fraction := (w.extractLsb' 0 23).toNat
  if exponent = 255 then (if fraction = 0 then .inf negative else .nan)
  else if exponent = 0 then .finite negative fraction
  else .finite negative ((2 ^ 23 + fraction) * 2 ^ (exponent - 1))

/-- n / d to the nearest integer, a tie to the even one. -/
def roundHalfEven (n d : Nat) : Nat :=
  if 2 * (n % d) < d then n / d
  else if d < 2 * (n % d) then n / d + 1
  else n / d + n / d % 2

/-- `u` units rounded to 24 significant bits (R106: `m = round_half_even(x / 2^(e-23))`, `p = m · 2^(e-23)`). -/
def roundUnits (u : Nat) : Nat :=
  let shift := Nat.log2 u - 23
  roundHalfEven u (2 ^ shift) * 2 ^ shift

/-- A finite value from exact units: 2^128 and above is an infinity. -/
def roundBinary32 (negative : Bool) (u : Nat) : Binary32 :=
  if 2 ^ 128 * 2 ^ 149 ≤ roundUnits u then .inf negative else .finite negative (roundUnits u)

/-- `v ⊗ f`: the channel, exact in binary32, times the factor, rounded to nearest with ties to even (R106). 0 ⊗ ∞ is NaN (R107). -/
def mulChannel (v : Byte) (f : Binary32) : Binary32 :=
  match f with
  | .nan => .nan
  | .inf negative => if v.toNat = 0 then .nan else .inf negative
  | .finite negative u => roundBinary32 negative (v.toNat * u)

/-- The product clamped to a channel and truncated toward zero (R106): NaN gives 0. -/
def clampChannel (p : Binary32) : Byte :=
  match p with
  | .nan => 0
  | .inf negative => if negative then 0 else 255
  | .finite negative u =>
    if negative then 0
    else if 255 * 2 ^ 149 ≤ u then 255
    else BitVec.ofNat 8 (u / 2 ^ 149)

/-- `fade_ch(v, f)` (R106). -/
def fadeChannel (v : Byte) (factor : Word32) : Byte := clampChannel (mulChannel v (decodeBinary32 factor))

/-- The fade, channel by channel with one factor (R105, R109). -/
def fadeColor (c : Color) (factor : Word32) : Color :=
  ⟨fadeChannel c.r factor, fadeChannel c.g factor, fadeChannel c.b factor⟩

/-- `fade_out[23:0]` (R105). -/
def fadeOut (s : State) : Word24 := packColor (fadeColor (unpackColor s.pins.fadeRgb) s.pins.fadeFactor)

/-- FADE (R105): drive `fade_rgb` and `fade_factor`; the result stands on `fade_out`. -/
def execFade (rgb : Word24) (factor : Word32) (s : State) : Result :=
  .next (drivePins { s.pins with fadeRgb := rgb, fadeFactor := factor } s)

end Sys2Proof.Machine
end

