-- ==== Sys2Proof/Machine/Encoder.lean ====
section
/-!
DEFINITION. The one-wire protocol encoder, its inverse, what its patterns mean on the line, and the function port ENCODE.
-/

namespace Sys2Proof.Machine

/-- NB, the number of output bytes per colour (spec/00_scope.md R9). -/
def bytesPerColor : Enc → Nat
  | .bytePerBit => 24
  | .nibblePerBit => 12

/-- Channel 0 is red, 1 green, 2 blue (spec/41_encoder.md R120). -/
def channel (c : Color) (k : Nat) : Byte :=
  if k = 0 then c.r else if k = 1 then c.g else c.b

/-- `L(c)[k]`: bit 7 - (k mod 8) of channel k div 8 (R120). -/
def logicalBit (c : Color) (k : Nat) : Bool := (channel c (k / 8)).getLsbD (7 - k % 8)

/-- The byte of a logical bit: 0xFC for 1, 0xC0 for 0 (R121). -/
def bytePattern (bit : Bool) : Byte := if bit then 0xFC else 0xC0

/-- The nibble of a logical bit: 0xE for 1, 0x8 for 0 (R122). -/
def nibblePattern (bit : Bool) : BitVec 4 := if bit then 0xE else 0x8

/-- `E(c)[k]`: one byte per logical bit (R123), or two nibbles with the earlier bit in the upper one (R124). -/
def encodedByte (e : Enc) (c : Color) (k : Nat) : Byte :=
  match e with
  | .bytePerBit => bytePattern (logicalBit c k)
  | .nibblePerBit => nibblePattern (logicalBit c (2 * k)) ++ nibblePattern (logicalBit c (2 * k + 1))

/-- `E(c)`, the NB bytes in transmission order (R125). It takes a colour that is already gamma-corrected (R130). -/
def encodeColor (e : Enc) (c : Color) : List Byte := (List.range (bytesPerColor e)).map (encodedByte e c)

/-- The value of a bus whose byte k is `[8k+7 : 8k]` (spec/30_encoding.md R81). -/
def busOfBytes : List Byte → Nat
  | [] => 0
  | b :: rest => b.toNat + 256 * busOfBytes rest

/-- `enc_out` for a build's ENC: byte k of the sequence is `enc_out[8k+7 : 8k]` (R81, R127). -/
def encodeBus (e : Enc) (c : Color) : BitVec (8 * bytesPerColor e) := BitVec.ofNat _ (busOfBytes (encodeColor e c))

/-- `enc_out[8·NB-1:0]` (R127). -/
def encOut (s : State) : BitVec (8 * bytesPerColor Config.enc) := encodeBus Config.enc (unpackColor s.pins.encRgb)

/-- ENCODE (R127): drive `enc_rgb`; the result stands on `enc_out`. -/
def execEncode (rgb : Word24) (s : State) : Result := .next (drivePins { s.pins with encRgb := rgb } s)

/-- The logical bits a byte carries, read by matching each pattern; none where the byte holds no pattern (spec/41_encoder.md R129). -/
def readPatterns (e : Enc) (b : Byte) : Option (List Bool) :=
  match e with
  | .bytePerBit => if b = 0xFC then some [true] else if b = 0xC0 then some [false] else none
  | .nibblePerBit =>
    if b = 0xEE then some [true, true] else if b = 0xE8 then some [true, false]
    else if b = 0x8E then some [false, true] else if b = 0x88 then some [false, false] else none

/-- The logical bits of a byte sequence, in transmission order (R129). -/
def readBits (e : Enc) : List Byte → Option (List Bool)
  | [] => some []
  | b :: rest =>
    match readPatterns e b, readBits e rest with
    | some bits, some more => some (bits ++ more)
    | _, _ => none

/-- Bits, most significant first, as a number. -/
def natOfBits (bits : List Bool) : Nat := bits.foldl (fun n bit => 2 * n + bit.toNat) 0

/-- Bit recovery (R129): the colour whose logical bits the bytes carry, red first, each channel most significant bit first. -/
def recoverColor (e : Enc) (bytes : List Byte) : Option Color :=
  match readBits e bytes with
  | some bits =>
    if bits.length = 24 then
      some ⟨BitVec.ofNat 8 (natOfBits (bits.take 8)), BitVec.ofNat 8 (natOfBits ((bits.drop 8).take 8)),
        BitVec.ofNat 8 (natOfBits (bits.drop 16))⟩
    else none
  | none => none

/-- How many periods of the transmitter's bit clock one logical bit takes (R131). -/
def subBitsPerBit : Enc → Nat
  | .bytePerBit => 8
  | .nibblePerBit => 4

/-- The sub-bits of a byte in the order a transmitter that meets spec/43_serializer.md R186 shifts them: bit 7 first
(spec/20_memory.md R57). -/
def subBits (b : Byte) : List Bool := (List.range 8).map fun i => b.getLsbD (7 - i)

/-- The sub-bits of a byte sequence on such a line. -/
def lineSubBits (bytes : List Byte) : List Bool := bytes.flatMap subBits

/-- The sub-bits of one logical bit: high for three quarters of its slot for a 1 and one quarter for a 0, then low (R131). -/
def pulse (e : Enc) (bit : Bool) : List Bool :=
  let quarter := subBitsPerBit e / 4
  let high := if bit then 3 * quarter else quarter
  List.replicate high true ++ List.replicate (subBitsPerBit e - high) false

end Sys2Proof.Machine
end

