-- ==== Sys2Proof/Machine/Serializer.lean ====
section
/-!
DEFINITION. The serializer: the frame byte sequence, FLUSH, each byte's transfer, and the transmitter's part of a cycle.
-/

namespace Sys2Proof.Machine

/-- The length of a frame, 64·NB bytes (spec/43_serializer.md R173). -/
def frameLength (e : Enc) : Nat := 64 * bytesPerColor e

/-- A frame-buffer word by number, below 64. -/
def voxelAt (fb : Vector Color 64) (i : Nat) : Color := fb[i % 64]'(Nat.mod_lt i (by decide))

/-- `S(FB)[j]` for j = i·NB + k: byte k of the encoded, gamma-corrected voxel i (R172). -/
def frameByte (e : Enc) (g : GammaTable) (fb : Vector Color 64) (j : Nat) : Byte :=
  encodedByte e (gammaColor g (voxelAt fb (j / bytesPerColor e))) (j % bytesPerColor e)

/-- `S(FB)`, the frame byte sequence (R172). -/
def frame (e : Enc) (g : GammaTable) (fb : Vector Color 64) : List Byte :=
  (List.range (frameLength e)).map (frameByte e g fb)

/-- `SER_VOX·NB + SER_BYTE`, the place in the frame of the byte being offered (R175). -/
def bytePosition (e : Enc) (s : State) : Nat := s.serVox.toNat * bytesPerColor e + s.serByte.toNat

/-- The byte to offer at place j: `S(FB)[j]`, and a free value past the frame's end, where the spec gives none; no run gets there
(notes/assumptions/17.md). -/
def offeredByte (e : Enc) (g : GammaTable) (s : State) (j : Nat) : Byte :=
  if j < frameLength e then frameByte e g s.fb j else Config.freeTxData s.draws

/-- The next pair (SER_VOX, SER_BYTE) (R175). -/
def advanceCounters (e : Enc) (s : State) : State :=
  { s with
    serByte := if s.serByte.toNat + 1 = bytesPerColor e then 0 else s.serByte + 1
    serVox := if s.serByte.toNat + 1 = bytesPerColor e then s.serVox + 1 else s.serVox }

/-- `complete_FLUSH` (R177). TX_DATA is unspecified from then on (R31, R183; notes/assumptions/5.md). -/
def completeFlush (s : State) : State := loseTxData (setErr .ok (setBusy false (idleSerializer s)))

/-- The transmitter has accepted TX_DATA: what a model observes (R174, R188). -/
def sendByte (s : State) : State := { s with transferred := s.transferred ++ [s.txData] }

/-- `TX_DATA <- b`. -/
def loadTxData (b : Byte) (s : State) : State := { s with txData := b }

/-- `on_transfer` (R175). The next byte is offered in the same step (R176). -/
def transferByte (e : Enc) (g : GammaTable) (s : State) : State :=
  if bytePosition e s + 1 = frameLength e then completeFlush (sendByte s)
  else loadTxData (offeredByte e g s (bytePosition e s + 1)) (advanceCounters e (sendByte s))

/-- The byte-stream port in a cycle with rst = 0 (R174, R178): the transmitter's answer counts only while a byte is offered; a
byte it does not accept stays offered, with no limit. -/
def transmitterCycle (e : Enc) (g : GammaTable) (s : State) : State :=
  if s.txValid then
    if txReadyIn s then transferByte e g (endTxAnswer s) else endTxAnswer s
  else s

/-- A frame begins: BUSY, the counters at 0, the first byte offered (R171). ERR is not written. -/
def startFrame (e : Enc) (g : GammaTable) (s : State) : State :=
  { setBusy true s with serVox := 0, serByte := 0, txData := frameByte e g s.fb 0, txValid := true }

/-- `exec_FLUSH` (R171) for a build's ENC and GAMMA: the check on DEF is the model's only, and comes first. -/
def acceptFlush (e : Enc) (g : GammaTable) (s : State) : Result :=
  if allDefined s then .next (startFrame e g s) else .fault .uninitialisedVoxel

/-- FLUSH (R170). -/
def execFlush (s : State) : Result := acceptFlush Config.enc Config.gamma s

end Sys2Proof.Machine
end

