-- ==== Sys2Proof/Machine/Dispatch.lean ====
section
/-! DEFINITION. One meaning for each instruction (spec/42_frame_buffer.md R141, spec/30_encoding.md R80). -/

namespace Sys2Proof.Machine

def exec (i : Instr) (s : State) : Host.Outcome State Fault Refusal :=
  match i with
  -- commands (spec/42_frame_buffer.md)
  | .init c => Sys2Proof.Machine.execInit c s
  | .fill c => Sys2Proof.Machine.execFill c s
  | .set idx c => Sys2Proof.Machine.execSet idx c s
  | .fillp p c => Sys2Proof.Machine.execFillp p c s
  | .fills y c => Sys2Proof.Machine.execFills y c s
  | .filll l c => Sys2Proof.Machine.execFilll l c s
  | .flush => Sys2Proof.Machine.execFlush s
  -- the illegal space (spec/60_exceptions.md R203)
  | .illegal op => Sys2Proof.Machine.execIllegal op s
  -- function ports (spec/40_color_model.md, spec/41_encoder.md)
  | .gamma v => Sys2Proof.Machine.execGamma v s
  | .wheel p => Sys2Proof.Machine.execWheel p s
  | .fade rgb factor => Sys2Proof.Machine.execFade rgb factor s
  | .encode rgb => Sys2Proof.Machine.execEncode rgb s

end Sys2Proof.Machine
end

