-- ==== Sys2Proof/Machine/Cycle.lean ====
section
/-! DEFINITION. One cycle of the block, with what the host and the transmitter do in it. -/

namespace Sys2Proof.Machine

/-- A cycle with rst = 0 in which the host runs no command: the byte-stream port's part of it, in this build. -/
def streamCycle (s : State) : State := transmitterCycle Config.enc Config.gamma s

/-- One cycle (spec/70_reset_and_hazards.md R246, R248; notes/assumptions/1.md). With rst = 1 the block resets (R231). A word
offered while `cmd_ready = 1` is accepted and runs (spec/42_frame_buffer.md R140, R141). A word offered while the block is BUSY is
not accepted and the host keeps offering it (R140, R238; notes/assumptions/15.md). In a cycle that accepts no command and has
rst = 0 the byte being offered may be transferred (spec/43_serializer.md R174), and a function port may be used (R181). -/
def cycle (s : State) : Result :=
  match s.host with
  | .rst :: _ => .next (applyReset (endHostMove s))
  | .offer w :: _ => if cmdReadyOut s then exec (decode w) (endHostMove s) else .next (streamCycle s)
  | .drive p :: _ => exec (portInstr p) (streamCycle (endHostMove s))
  | .wait :: _ => .next (streamCycle (endHostMove s))
  | [] => .next (streamCycle s)

/-- s with the block idle and this word offered by the host in the next cycle (R34; notes/assumptions/12.md). -/
def offerNext (w : Word64) (s : State) : State :=
  { idleSerializer (setBusy false s) with host := .offer w :: s.host }

end Sys2Proof.Machine
end

