-- ==== Sys2Proof/Machine/Step.lean ====
section
/-! DEFINITION. One step, and how a word of the opcode table comes to be the next one accepted. -/

namespace Sys2Proof.Machine

/-- One step is one cycle: one accepted command or one byte transfer at most (spec/70_reset_and_hazards.md R246). -/
def step (s : State) : Host.Outcome State Fault Refusal := cycle s

/-- s with the word of an opcode-table row offered by the host in the next cycle, and the block idle, so that it is accepted there
(spec/42_frame_buffer.md R140; notes/assumptions/12.md). In a state that is already idle only the host's list changes. -/
def State.withFetchWord (s : State) (nbits w : Nat) : State := offerNext (tableWord nbits w) s

end Sys2Proof.Machine
end

