-- ==== Sys2Proof/Machine/Assembler.lean ====
section
/-!
DEFINITION. The assembler of spec/30_encoding.md R83 to R85: one line of text, as characters, to the command words it stands for,
and the pseudo-instructions' expansions. It is the host's tool, no part of the block.
-/

namespace Sys2Proof.Machine

/-- The pseudo-instructions (R84). -/
inductive Pseudo where
  | new (c : Color)
  | clear
  | setxyz (x y z : Nat) (c : Color)
deriving DecidableEq, Repr

/-- What each expands to (R84). SETXYZ is rejected unless x, y and z are each 0 to 3. -/
def expandPseudo : Pseudo → Option Instr
  | .new c => some (.init c)
  | .clear => some (.fill ⟨0, 0, 0⟩)
  | .setxyz x y z c =>
    if x < 4 ∧ y < 4 ∧ z < 4 then some (.set (BitVec.ofNat 32 (voxelIndex x y z)) c) else none

/-- The value of a hexadecimal digit of either case (notes/assumptions/20.md). -/
def hexDigit (ch : Char) : Option Nat :=
  let n := ch.toNat
  if 48 ≤ n ∧ n ≤ 57 then some (n - 48)
  else if 65 ≤ n ∧ n ≤ 70 then some (n - 55)
  else if 97 ≤ n ∧ n ≤ 102 then some (n - 87)
  else none

/-- Digits in a base, after the value of those before them; none where one is no digit of the base. -/
def digitsFrom (base : Nat) : Nat → List Char → Option Nat
  | acc, [] => some acc
  | acc, ch :: rest =>
    match hexDigit ch with
    | some d => if d < base then digitsFrom base (base * acc + d) rest else none
    | none => none

/-- One or more digits in a base. -/
def number (base : Nat) : List Char → Option Nat
  | [] => none
  | ch :: rest => digitsFrom base 0 (ch :: rest)

/-- A decimal or `0x` hexadecimal integer. -/
def integer : List Char → Option Nat
  | '0' :: 'x' :: rest => number 16 rest
  | '0' :: 'X' :: rest => number 16 rest
  | chars => number 10 chars

/-- An index or axis value: an integer from 0 to 2^32 - 1, not checked further (R83). -/
def argOperand (chars : List Char) : Option Word32 :=
  match integer chars with
  | some n => if n < 2 ^ 32 then some (BitVec.ofNat 32 n) else none
  | none => none

/-- `#RRGGBB`: six hexadecimal digits, red first (R83). -/
def colorOperand : List Char → Option Color
  | '#' :: rest =>
    if rest.length = 6 then (number 16 rest).map fun n => unpackColor (BitVec.ofNat 24 n) else none
  | _ => none

/-- A raw word: `0x` and exactly sixteen hexadecimal digits, the form R83 shows. DESIGN CHOICE (notes/assumptions/20.md): every
other form is rejected, also the `.word64 0` that spec/95_test_vectors.md has in its column of commands. -/
def wordOperand : List Char → Option Word64
  | '0' :: 'x' :: rest => if rest.length = 16 then (number 16 rest).map (BitVec.ofNat 64) else none
  | _ => none

/-- A space or a tab (notes/assumptions/20.md). -/
def isBlank (ch : Char) : Bool := ch == ' ' || ch == '\t'

/-- A lower-case letter as a capital: mnemonics are case-insensitive (R83). -/
def upper (ch : Char) : Char := if 97 ≤ ch.toNat ∧ ch.toNat ≤ 122 then Char.ofNat (ch.toNat - 32) else ch

/-- Without the blanks at both ends. -/
def trim (chars : List Char) : List Char := ((chars.dropWhile isBlank).reverse.dropWhile isBlank).reverse

/-- The parts between commas. -/
def splitCommas : List Char → List (List Char)
  | [] => [[]]
  | ch :: rest =>
    match splitCommas rest with
    | part :: parts => if ch = ',' then [] :: part :: parts else (ch :: part) :: parts
    | [] => [[ch]]

/-- A command without an index: one colour. -/
def colorOnly (make : Color → Instr) (operands : List (List Char)) : Option Instr :=
  match operands with
  | [c] => (colorOperand c).map make
  | _ => none

/-- A command with an index or axis value and a colour. -/
def argAndColor (make : Word32 → Color → Instr) (operands : List (List Char)) : Option Instr :=
  match operands with
  | [a, c] =>
    match argOperand a, colorOperand c with
    | some arg, some col => some (make arg col)
    | _, _ => none
  | _ => none

/-- SETXYZ's operands, expanded (R84). DESIGN CHOICE (notes/assumptions/20.md): R84 does not say how x, y and z are written; they
are integers as R83 writes an index, decimal or hexadecimal, of any length, checked to be 0 to 3 afterwards. -/
def setxyzOperands (operands : List (List Char)) : Option Instr :=
  match operands with
  | [x, y, z, c] =>
    match integer x, integer y, integer z, colorOperand c with
    | some x, some y, some z, some col => expandPseudo (.setxyz x y z col)
    | _, _, _, _ => none
  | _ => none

/-- A line's instruction, from its mnemonic in capitals and its operands (R83, R84). -/
def lineInstr (mnemonic : List Char) (operands : List (List Char)) : Option Instr :=
  if mnemonic = ['I', 'N', 'I', 'T'] then colorOnly .init operands
  else if mnemonic = ['F', 'I', 'L', 'L'] then colorOnly .fill operands
  else if mnemonic = ['S', 'E', 'T'] then argAndColor .set operands
  else if mnemonic = ['F', 'I', 'L', 'L', 'P'] then argAndColor .fillp operands
  else if mnemonic = ['F', 'I', 'L', 'L', 'S'] then argAndColor .fills operands
  else if mnemonic = ['F', 'I', 'L', 'L', 'L'] then argAndColor .filll operands
  else if mnemonic = ['F', 'L', 'U', 'S', 'H'] then (if operands = [] then some .flush else none)
  else if mnemonic = ['N', 'E', 'W'] then
    match operands with
    | [c] => (colorOperand c).bind fun col => expandPseudo (.new col)
    | _ => none
  else if mnemonic = ['C', 'L', 'E', 'A', 'R'] then (if operands = [] then expandPseudo .clear else none)
  else if mnemonic = ['S', 'E', 'T', 'X', 'Y', 'Z'] then setxyzOperands operands
  else none

/-- A line's command words: none of them for a line with nothing but blanks and a comment, one for a command; `none` where the
assembler rejects the line (R83). -/
def assembleLine (line : List Char) : Option (List Word64) :=
  match trim (line.takeWhile (· != ';')) with
  | [] => some []
  | ch :: rest =>
    let mnemonic := ((ch :: rest).takeWhile fun c => !isBlank c).map upper
    let after := trim ((ch :: rest).dropWhile fun c => !isBlank c)
    let operands := if after = [] then [] else (splitCommas after).map trim
    if mnemonic = ['.', 'W', 'O', 'R', 'D', '6', '4'] then
      match operands with
      | [w] => (wordOperand w).map fun word => [word]
      | _ => none
    else
      match lineInstr mnemonic operands with
      | some i => (encode i).map fun word => [word]
      | none => none

/-- A program's command words, line by line (R83 "one per line"); `none` where a line is rejected. -/
def assemble : List (List Char) → Option (List Word64)
  | [] => some []
  | line :: rest =>
    match assembleLine line, assemble rest with
    | some words, some more => some (words ++ more)
    | _, _ => none

end Sys2Proof.Machine
end

