-- ==== Sys2Proof/Safety.lean ====
section
/-!
DEFINITION. What claims are about: the invariant of the block, and what a safe run is.
-/

namespace Sys2Proof

open Machine

/-- Code 3 is never in ERR (spec/60_exceptions.md R200, U7 of spec/93_implementation_defined.md). -/
def LegalError (s : State) : Prop := s.status.err ≠ 3

/-- The bytes of the frame accepted so far, where j of them have been, are the newest in the transmitter's hands
(spec/43_serializer.md R175, R182). -/
def FramePartSent (s : State) (j : Nat) : Prop :=
  (frame Config.enc Config.gamma s.fb).take j <:+ s.transferred

/-- Between frames no byte is offered and the counters hold 0 (spec/10_state.md R31, spec/43_serializer.md R183). -/
def IdleShape (s : State) : Prop := s.txValid = false ∧ s.serVox = 0 ∧ s.serByte = 0

/-- Inside a frame a byte is offered, SER_BYTE is below NB, TX_DATA is the byte of the frame the counters name, every voxel has
been written, and the bytes before that one have been transferred (R171, R175, R176). -/
def FrameShape (s : State) : Prop :=
  s.txValid = true ∧ s.serByte.toNat < bytesPerColor Config.enc ∧
    s.txData = frameByte Config.enc Config.gamma s.fb (bytePosition Config.enc s) ∧
    (∀ i : Fin 64, s.defined[i] = true) ∧ FramePartSent s (bytePosition Config.enc s)

/-- What every step keeps. -/
def Inv (s : State) : Prop :=
  LegalError s ∧ (s.status.busy = false → IdleShape s) ∧ (s.status.busy = true → FrameShape s)

/-- A run of k steps that ends in a next state: no model fault and no refusal on the way (spec/60_exceptions.md R206). -/
def SafeFor (k : Nat) (s : State) : Prop := ∃ t, core.run k s = .next t

end Sys2Proof
end

