-- ==== Sys2Proof/Certificates/Slice0/Obligations.lean ====
section
/-!
DEFINITION. The statements for the provers. Each docstring names the rule of spec/ it formalises.
-/

open Sys2Proof Sys2Proof.Machine

namespace Sys2Proof.Certificates

/-- Everything but FB, DEF and STATUS.ERR is as before. -/
def SameButVoxelsAndErr (s t : State) : Prop :=
  t.status.busy = s.status.busy ∧ t.serVox = s.serVox ∧ t.serByte = s.serByte ∧ t.txValid = s.txValid ∧
    t.txData = s.txData ∧ t.pins = s.pins ∧ t.host = s.host ∧ t.txReady = s.txReady ∧ t.transferred = s.transferred ∧
    t.draws = s.draws

/-- The voxels of a set hold the colour and are defined, every other voxel and its DEF bit are as before, ERR is OK, and
everything else is as before. -/
def WritesExactly (vs : Nat → Prop) (c : Color) (s t : State) : Prop :=
  (∀ i (h : i < 64), (vs i → t.fb[i] = c ∧ t.defined[i] = true) ∧
    (¬ vs i → t.fb[i] = s.fb[i] ∧ t.defined[i] = s.defined[i])) ∧
  t.status.err = 0 ∧ SameButVoxelsAndErr s t

/-- Only STATUS.ERR differs, and it holds this code. -/
def OnlyErrBecomes (code : BitVec 2) (s t : State) : Prop := t = { s with status := { s.status with err := code } }

/-- Only a function port's input differs. -/
def OnlyPinsBecome (pins : PortPins) (s t : State) : Prop := t = { s with pins := pins }

/-- OP, ARG and the three channels of COL of a command word, by arithmetic on its bits (spec/30_encoding.md R70, R73). -/
def opOf (w : Word64) : Nat := w.toNat / 2 ^ 56
def argOf (w : Word64) : Nat := w.toNat / 2 ^ 24 % 2 ^ 32
def colOf (w : Word64) : Color :=
  ⟨BitVec.ofNat 8 (w.toNat / 2 ^ 16 % 256), BitVec.ofNat 8 (w.toNat / 2 ^ 8 % 256), BitVec.ofNat 8 (w.toNat % 256)⟩

/-- A word is accepted in this cycle: the host offers it and `cmd_ready = 1` (R34, R140). -/
def Accepts (s : State) (w : Word64) : Prop := (∃ rest, s.host = .offer w :: rest) ∧ s.status.busy = false

/-- The error code a command other than FLUSH ends with, from its word (spec/60_exceptions.md R202 to R204). -/
def codeOf (w : Word64) : BitVec 2 :=
  if opOf w = 0 ∨ 8 ≤ opOf w then 2
  else if (opOf w = 3 ∧ 64 ≤ argOf w) ∨ (4 ≤ opOf w ∧ opOf w ≤ 6 ∧ 4 ≤ argOf w) then 1
  else 0

/-- The value of binary32 bits that stand for a finite number (spec/30_encoding.md R82), as a rational. R82 takes the layout from
general knowledge, and the bias, the hidden bit and the subnormals' unit are PRESUMED (notes/assumptions/18.md). -/
def factorValue (f : Word32) : ℚ :=
  let sign : ℚ := if f.toNat / 2 ^ 31 = 1 then -1 else 1
  let exponent : Nat := f.toNat / 2 ^ 23 % 256
  let fraction : Nat := f.toNat % 2 ^ 23
  if exponent = 0 then sign * fraction * (2 : ℚ) ^ (-149 : ℤ)
  else sign * (2 ^ 23 + fraction) * (2 : ℚ) ^ ((exponent : ℤ) - 150)

/-- A rational to the nearest integer, a tie to the even one. -/
def roundEvenRat (q : ℚ) : ℤ :=
  if q - ⌊q⌋ < 1 / 2 then ⌊q⌋ else if 1 / 2 < q - ⌊q⌋ then ⌊q⌋ + 1 else if ⌊q⌋ % 2 = 0 then ⌊q⌋ else ⌊q⌋ + 1

/-- The exact formulation of R106 for x = v·f: 0 up to 0 and below 2^-126, 255 from 255 on, and between them the product rounded
to 24 bits and truncated, at most 255. -/
def fadeExact (x : ℚ) : ℤ :=
  if x ≤ 0 then 0
  else if 255 ≤ x then 255
  else if x < (2 : ℚ) ^ (-126 : ℤ) then 0
  else
    let e := Int.log 2 x
    let p := (roundEvenRat (x / (2 : ℚ) ^ (e - 23)) : ℚ) * (2 : ℚ) ^ (e - 23)
    min 255 ⌊p⌋

/-- One step of every command of a list, each run at the state the one before it left. -/
def runAll (cmds : List Instr) (s : State) : Result :=
  cmds.foldl (fun r i => match r with | .next t => exec i t | other => other) (.next s)

end Sys2Proof.Certificates

open Sys2Proof.Certificates

/-! ### Reset -/

/-- R38: what reset leaves in the elements the spec gives a value, and `cmd_ready` after it (R234). -/
def Obligations.ResetValuesOfTheSpec : Prop :=
  (∀ i (h : i < 64), State.reset.defined[i] = false) ∧ State.reset.status.busy = false ∧ State.reset.status.err = 0 ∧
    State.reset.serVox = 0 ∧ State.reset.serByte = 0 ∧ State.reset.txValid = false ∧ statusOut State.reset = 0 ∧
    cmdReadyOut State.reset = true

/-- R231: a cycle with rst = 1 puts every state element at its reset value, whatever the state; the environment's lists, the
ports' inputs and the bytes already transferred are no state of the block. R230: in that cycle `cmd_ready` and `tx_valid` are 0.
The model's own reading, not R231's words: `tx_valid` is 0 and no byte is transferred already in this cycle
(notes/assumptions/14.md, DEDUCED, unsafe: R36 and R230 differ), the record of transferred bytes is kept
(notes/assumptions/13.md), so are the ports' inputs (notes/assumptions/6.md), and no answer of the transmitter is used up
(notes/assumptions/2.md). -/
def Obligations.ResetCycleFromAnyState : Prop :=
  ∀ (s : State) rest, s.host = .rst :: rest →
    cmdReadyOut s = false ∧ txValidOut s = false ∧
    ∃ t, step s = .next t ∧ t.status.busy = false ∧ t.status.err = 0 ∧ t.serVox = 0 ∧ t.serByte = 0 ∧ t.txValid = false ∧
      (∀ i (h : i < 64), t.defined[i] = false) ∧ t.pins = s.pins ∧ t.host = rest ∧ t.txReady = s.txReady ∧
      t.transferred = s.transferred

/-- R182, R233: reset in mid-frame ends it: the transmitter keeps the prefix of `S(FB)` it has accepted and gets nothing more, and
nothing resumes: however many cycles pass in which the host makes no move, the state stays as the reset cycle left it. That no byte
is transferred in the cycle with rst = 1 itself is the model's reading (notes/assumptions/14.md, DEDUCED, unsafe: R36 and R230
differ), and that the transmitter keeps what it has accepted is the record of notes/assumptions/13.md. -/
def Obligations.ResetEndsAFrameWithAPrefix : Prop :=
  ∀ (s : State) (k : Nat), Inv s → s.status.busy = true → s.host = [.rst] →
    ∃ t, core.run (k + 1) s = .next t ∧ core.run 1 s = .next t ∧ t.transferred = s.transferred ∧ t.txValid = false ∧
      t.status.busy = false ∧ t.status.err = 0 ∧ t.serVox = 0 ∧ t.serByte = 0 ∧ (∀ i (h : i < 64), t.defined[i] = false) ∧
      (frame Config.enc Config.gamma s.fb).take (bytePosition Config.enc s) <:+ t.transferred

/-! ### Decoding -/

/-- R55: red in bits 23:16, green in 15:8, blue in 7:0, and unpacking gives the colour back. -/
def Obligations.ColourPacking : Prop :=
  (∀ c : Color, (packColor c).toNat = c.r.toNat * 2 ^ 16 + c.g.toNat * 2 ^ 8 + c.b.toNat ∧ unpackColor (packColor c) = c) ∧
  ∀ w : Word24, packColor (unpackColor w) = w

/-- R79, R71 to R74, R77: the decoder, over arithmetic on the word's bits. -/
def Obligations.DecodeFollowsTheOpcodeMap : Prop :=
  ∀ w : Word64,
    (opOf w = 1 → decode w = .init (colOf w)) ∧ (opOf w = 2 → decode w = .fill (colOf w)) ∧
    (opOf w = 3 → decode w = .set (BitVec.ofNat 32 (argOf w)) (colOf w)) ∧
    (opOf w = 4 → decode w = .fillp (BitVec.ofNat 32 (argOf w)) (colOf w)) ∧
    (opOf w = 5 → decode w = .fills (BitVec.ofNat 32 (argOf w)) (colOf w)) ∧
    (opOf w = 6 → decode w = .filll (BitVec.ofNat 32 (argOf w)) (colOf w)) ∧
    (opOf w = 7 → decode w = .flush) ∧
    (opOf w = 0 ∨ 8 ≤ opOf w → decode w = .illegal (BitVec.ofNat 8 (opOf w)))

/-- R70, R76, R85: an encoded well-formed command decodes to itself, with every operand. -/
def Obligations.DecodeOfEncodeIsTheInstruction : Prop :=
  ∀ (i : Instr) (w : Word64), i.wellFormed = true → encode i = some w → decode w = i

/-- R79: every one of the 2^64 words decodes to a well-formed command, which has a word of its own that decodes the same. -/
def Obligations.EveryWordIsAWellFormedCommand : Prop :=
  ∀ w : Word64, (decode w).wellFormed = true ∧ (decode w).isCommand = true ∧
    ∃ v, encode (decode w) = some v ∧ opOf v = opOf w ∧ decode v = decode w

/-- R75: an ignored field changes nothing, so a word behaves as the one with zero there; and the encoder writes zero. -/
def Obligations.IgnoredFieldsChangeNothing : Prop :=
  (∀ v w : Word64, opOf v = opOf w →
    ((opOf w = 1 ∨ opOf w = 2) ∧ colOf v = colOf w) ∨ opOf w = 7 → decode v = decode w) ∧
  ∀ (i : Instr) (w : Word64), encode i = some w →
    ((opOf w = 1 ∨ opOf w = 2 ∨ opOf w = 7) → argOf w = 0) ∧ (opOf w = 7 → colOf w = ⟨0, 0, 0⟩)

/-- R85: the word an instruction assembles to, as a number. -/
def Obligations.AssembledWordAsANumber : Prop :=
  ∀ (idx : Word32) (c : Color),
    let low := c.r.toNat * 2 ^ 16 + c.g.toNat * 2 ^ 8 + c.b.toNat
    (∃ w, encode (.init c) = some w ∧ w.toNat = 1 * 2 ^ 56 + low) ∧
    (∃ w, encode (.fill c) = some w ∧ w.toNat = 2 * 2 ^ 56 + low) ∧
    (∃ w, encode (.set idx c) = some w ∧ w.toNat = 3 * 2 ^ 56 + idx.toNat * 2 ^ 24 + low) ∧
    (∃ w, encode (.fillp idx c) = some w ∧ w.toNat = 4 * 2 ^ 56 + idx.toNat * 2 ^ 24 + low) ∧
    (∃ w, encode (.fills idx c) = some w ∧ w.toNat = 5 * 2 ^ 56 + idx.toNat * 2 ^ 24 + low) ∧
    (∃ w, encode (.filll idx c) = some w ∧ w.toNat = 6 * 2 ^ 56 + idx.toNat * 2 ^ 24 + low) ∧
    (∃ w, encode .flush = some w ∧ w.toNat = 7 * 2 ^ 56) ∧
    encode (.set 5 ⟨0xFF, 0x80, 0x00⟩) = some 0x0300000005FF8000

/-- Words written out in the spec decode to what they stand for: spec/95_test_vectors.md L2 (INIT, FILL, FLUSH), P2 (FILLP, FILLL)
and P3 (FILLS, the illegal word), and R85's example (SET). -/
def Obligations.WordsOfTheSpecDecode : Prop :=
  decode 0x0100000000123456 = .init ⟨0x12, 0x34, 0x56⟩ ∧ decode 0x0200000000FFFFFF = .fill ⟨0xFF, 0xFF, 0xFF⟩ ∧
    decode 0x0300000005FF8000 = .set 5 ⟨0xFF, 0x80, 0x00⟩ ∧ decode 0x04000000020000FF = .fillp 2 ⟨0, 0, 0xFF⟩ ∧
    decode 0x0500000003000000 = .fills 3 ⟨0, 0, 0⟩ ∧ decode 0x060000000100FF00 = .filll 1 ⟨0, 0xFF, 0⟩ ∧
    decode 0x07000000FF123456 = .flush ∧ decode 0x09000000FFFFFFFF = .illegal 9

/-! ### A step runs what the host does -/

/-- R140, R141, R246: what a step does with each move of the host: a word that is accepted runs as the instruction it decodes to,
a driven port as its operation, and the rest is the byte-stream port's part of the cycle. -/
def Obligations.StepRunsTheHostsMove : Prop :=
  ∀ s : State,
    (∀ w rest, s.host = .offer w :: rest → s.status.busy = false → step s = exec (decode w) { s with host := rest }) ∧
    (∀ w rest, s.host = .offer w :: rest → s.status.busy = true → step s = .next (streamCycle s)) ∧
    (∀ p rest, s.host = .drive p :: rest → step s = exec (portInstr p) (streamCycle { s with host := rest })) ∧
    (∀ rest, s.host = .wait :: rest → step s = .next (streamCycle { s with host := rest })) ∧
    (s.host = [] → step s = .next (streamCycle s)) ∧
    (∀ rest, s.host = .rst :: rest → step s = .next (applyReset { s with host := rest }))

/-- R140: `cmd_ready` is NOT rst AND NOT BUSY; the word offered in a cycle with `cmd_ready = 1` is accepted and no other; while BUSY
an offered word is not accepted, is not lost, and changes nothing: the cycle leaves the block as it leaves it when the host offers
nothing. -/
def Obligations.CommandHandshake : Prop :=
  ∀ s : State, cmdReadyOut s = (!rstIn s && !s.status.busy) ∧
    ∀ w rest, s.host = .offer w :: rest →
      (cmdReadyOut s = true → step s = exec (decode w) { s with host := rest }) ∧
      (cmdReadyOut s = false →
        ∃ t, step s = .next t ∧ t.host = s.host ∧ step { s with host := [] } = .next { t with host := [] })

/-! ### The frame buffer's commands -/

/-- R142. -/
def Obligations.InitSetsEveryVoxel : Prop :=
  ∀ (c : Color) (s : State),
    (∃ t, exec (.init c) s = .next t ∧ WritesExactly (fun _ => True) c s t) ∧ exec (.init c) s = exec (.fill c) s ∧
    ∀ w, opOf w = 1 → decode w = .init (colOf w)

/-- R143. -/
def Obligations.FillSetsEveryVoxel : Prop :=
  ∀ (c : Color) (s : State),
    (∃ t, exec (.fill c) s = .next t ∧ WritesExactly (fun _ => True) c s t) ∧
    ∀ w, opOf w = 2 → decode w = .fill (colOf w)

/-- R144: exactly one voxel, or IndexOutOfRange and no write. -/
def Obligations.SetWritesOneVoxelOrFails : Prop :=
  ∀ (idx : Word32) (c : Color) (s : State),
    (idx.toNat < 64 → ∃ t, exec (.set idx c) s = .next t ∧ WritesExactly (fun i => i = idx.toNat) c s t) ∧
    (64 ≤ idx.toNat → ∃ t, exec (.set idx c) s = .next t ∧ OnlyErrBecomes 1 s t) ∧
    ∀ w, opOf w = 3 → decode w = .set (BitVec.ofNat 32 (argOf w)) (colOf w)

/-- R145: the panel x = p, or IndexOutOfRange and no write. -/
def Obligations.FillpWritesAPanelOrFails : Prop :=
  ∀ (p : Word32) (c : Color) (s : State),
    (p.toNat < 4 → ∃ t, exec (.fillp p c) s = .next t ∧ WritesExactly (fun i => i % 4 = p.toNat) c s t) ∧
    (4 ≤ p.toNat → ∃ t, exec (.fillp p c) s = .next t ∧ OnlyErrBecomes 1 s t) ∧
    ∀ w, opOf w = 4 → decode w = .fillp (BitVec.ofNat 32 (argOf w)) (colOf w)

/-- R146: the slice y = s, or IndexOutOfRange and no write. -/
def Obligations.FillsWritesASliceOrFails : Prop :=
  ∀ (y : Word32) (c : Color) (s : State),
    (y.toNat < 4 → ∃ t, exec (.fills y c) s = .next t ∧ WritesExactly (fun i => i / 4 % 4 = y.toNat) c s t) ∧
    (4 ≤ y.toNat → ∃ t, exec (.fills y c) s = .next t ∧ OnlyErrBecomes 1 s t) ∧
    ∀ w, opOf w = 5 → decode w = .fills (BitVec.ofNat 32 (argOf w)) (colOf w)

/-- R147: the layer z = l, or IndexOutOfRange and no write. -/
def Obligations.FilllWritesALayerOrFails : Prop :=
  ∀ (l : Word32) (c : Color) (s : State),
    (l.toNat < 4 → ∃ t, exec (.filll l c) s = .next t ∧ WritesExactly (fun i => i / 16 = l.toNat) c s t) ∧
    (4 ≤ l.toNat → ∃ t, exec (.filll l c) s = .next t ∧ OnlyErrBecomes 1 s t) ∧
    ∀ w, opOf w = 6 → decode w = .filll (BitVec.ofNat 32 (argOf w)) (colOf w)

/-- R203, R204, R77: a word with an illegal OP completes with IllegalCommand and no other change, whatever its ARG and COL. -/
def Obligations.IllegalOpWritesOnlyErr : Prop :=
  (∀ (op : Byte) (s : State), ∃ t, exec (.illegal op) s = .next t ∧ OnlyErrBecomes 2 s t) ∧
  ∀ (w : Word64) (s : State) rest, s.host = .offer w :: rest → s.status.busy = false → opOf w = 0 ∨ 8 ≤ opOf w →
    ∃ t, step s = .next t ∧ OnlyErrBecomes 2 { s with host := rest } t

/-- R200, R202 to R204: every command but FLUSH completes in the step that accepts it, with exactly the code its word calls for; the
acceptance of FLUSH writes no code (and its completion writes 0: `LastTransferCompletesFlush`). -/
def Obligations.AcceptedCommandEndsWithItsCode : Prop :=
  ∀ (s : State) (w : Word64), Accepts s w →
    (opOf w ≠ 7 → ∃ t, step s = .next t ∧ t.status.err = codeOf w ∧ t.status.busy = false) ∧
    (opOf w = 7 → ∀ t, step s = .next t → t.status.err = s.status.err)

/-- R150, R201: a command that fails writes STATUS.ERR only, and the block accepts the host's next word as usual. -/
def Obligations.FailedCommandLeavesTheBlockReady : Prop :=
  ∀ (s : State) (w : Word64) rest, s.host = .offer w :: rest → s.status.busy = false → opOf w ≠ 7 → codeOf w ≠ 0 →
    ∃ t, step s = .next t ∧ OnlyErrBecomes (codeOf w) { s with host := rest } t ∧
      ∀ v, (∃ more, rest = .offer v :: more) → Accepts t v ∧ cmdReadyOut t = true

/-- R149: a command repeated with the same operands leaves the same state. -/
def Obligations.RepeatedCommandChangesNothingMore : Prop :=
  ∀ (i : Instr) (s t : State), i.isCommand = true → i ≠ .flush → exec i s = .next t → exec i t = .next t

/-- R148: the four commands of one axis, with values 0 to 3 in any order, write every voxel once: each voxel ends with the colour
given for its axis value. -/
def Obligations.FourPanelsSlicesOrLayersInAnyOrder : Prop :=
  ∀ (order : List Nat) (col : Nat → Color) (s : State), order.Perm [0, 1, 2, 3] →
    (∃ t, runAll (order.map fun p => .fillp (BitVec.ofNat 32 p) (col p)) s = .next t ∧
      ∀ i (h : i < 64), t.fb[i] = col (i % 4) ∧ t.defined[i] = true) ∧
    (∃ t, runAll (order.map fun y => .fills (BitVec.ofNat 32 y) (col y)) s = .next t ∧
      ∀ i (h : i < 64), t.fb[i] = col (i / 4 % 4) ∧ t.defined[i] = true) ∧
    (∃ t, runAll (order.map fun l => .filll (BitVec.ofNat 32 l) (col l)) s = .next t ∧
      ∀ i (h : i < 64), t.fb[i] = col (i / 16) ∧ t.defined[i] = true)

/-- R54, R148: each panel, slice and layer has 16 members, and two of different axes meet in the 4 voxels the rule lists. -/
def Obligations.AxisSetsHaveSixteenMembers : Prop :=
  ∀ a < 4, ∀ b < 4,
    (List.range 64).filter (panel a) = (List.range 16).map (fun k => a + 4 * k) ∧
    ((List.range 64).filter (slice a)).Perm ((List.range 16).map fun k => k % 4 + 4 * a + 16 * (k / 4)) ∧
    (List.range 64).filter (layer a) = (List.range 16).map (fun k => 16 * a + k) ∧
    (List.range 64).filter (fun i => panel a i && slice b i) = (List.range 4).map (fun z => a + 4 * b + 16 * z) ∧
    (List.range 64).filter (fun i => panel a i && layer b i) = (List.range 4).map (fun y => a + 4 * y + 16 * b) ∧
    (List.range 64).filter (fun i => slice a i && layer b i) = (List.range 4).map (fun x => x + 4 * a + 16 * b)

/-- R51: the voxel address decoder is a bijection between coordinates and indices. -/
def Obligations.VoxelDecoderIsABijection : Prop :=
  (∀ x < 4, ∀ y < 4, ∀ z < 4, voxelIndex x y z = x + 4 * y + 16 * z ∧ voxelIndex x y z < 64 ∧
    voxelX (voxelIndex x y z) = x ∧ voxelY (voxelIndex x y z) = y ∧ voxelZ (voxelIndex x y z) = z) ∧
  ∀ i < 64, voxelX i < 4 ∧ voxelY i < 4 ∧ voxelZ i < 4 ∧ voxelIndex (voxelX i) (voxelY i) (voxelZ i) = i

/-- R84: SETXYZ is rejected unless each coordinate is 0 to 3, and its command writes the voxel at (x, y, z) and no other; NEW is
INIT and CLEAR is FILL with black. -/
def Obligations.PseudoInstructionsExpand : Prop :=
  ∀ (x y z : Nat) (c : Color) (s : State),
    expandPseudo (.new c) = some (.init c) ∧ expandPseudo .clear = some (.fill ⟨0, 0, 0⟩) ∧
    (expandPseudo (.setxyz x y z c) = none ↔ ¬ (x < 4 ∧ y < 4 ∧ z < 4)) ∧
    (x < 4 → y < 4 → z < 4 → expandPseudo (.setxyz x y z c) = some (.set (BitVec.ofNat 32 (x + 4 * y + 16 * z)) c) ∧
      ∃ t, exec (.set (BitVec.ofNat 32 (x + 4 * y + 16 * z)) c) s = .next t ∧
      WritesExactly (fun n => n % 4 = x ∧ n / 4 % 4 = y ∧ n / 16 = z) c s t)

/-! ### Whole-machine rules about the frame buffer and STATUS -/

/-- R22, R27, R52: a step changes a voxel only by accepting INIT, FILL, SET, FILLP, FILLS or FILLL, or in a cycle with rst = 1; a
voxel changed by a command is defined afterwards, and a DEF bit is cleared only by rst. -/
def Obligations.OnlyMutatorsWriteVoxels : Prop :=
  ∀ (s t : State) (i : Nat) (h : i < 64), step s = .next t → rstIn s = false →
    ((t.fb[i] ≠ s.fb[i] ∨ t.defined[i] ≠ s.defined[i]) → t.defined[i] = true ∧ ∃ w, Accepts s w ∧ 1 ≤ opOf w ∧ opOf w ≤ 6) ∧
    (s.defined[i] = true → t.defined[i] = true)

/-- R64, R180: FB and DEF hold the same values through a FLUSH, whatever the host offers or drives. -/
def Obligations.FrameBufferHoldsDuringFlush : Prop :=
  ∀ s : State, s.status.busy = true → rstIn s = false →
    ∃ t, step s = .next t ∧ t.fb = s.fb ∧ t.defined = s.defined

/-- R28, R39: ERR changes only when a command completes or in a cycle with rst = 1: a step that accepts no command and completes no
FLUSH keeps it, so does the acceptance of a FLUSH, and the completion of a FLUSH writes 0. -/
def Obligations.ErrKeepsTheLastCompletedCode : Prop :=
  ∀ s t : State, Inv s → step s = .next t → rstIn s = false →
    ((∀ w, ¬ Accepts s w) → (s.status.busy = true → t.status.busy = true) → t.status.err = s.status.err) ∧
    (∀ w, Accepts s w → opOf w = 7 → t.status.err = s.status.err) ∧
    (s.status.busy = true → t.status.busy = false → t.status.err = 0)

/-- R218: between commands the block is idle with all its state kept: however many cycles pass in which the host makes no move, the
state is as it was. -/
def Obligations.IdleBlockKeepsItsState : Prop :=
  ∀ (s : State) (k n : Nat), Inv s → s.status.busy = false → s.host = List.replicate n .wait →
    core.run k s = .next { s with host := List.replicate (n - k) .wait }

/-- R25, R35: the fields of STATUS as `status[7:0]` shows them. -/
def Obligations.StatusFieldsAndHardwiredZeros : Prop :=
  ∀ s : State, (statusOut s).toNat % 2 = s.status.busy.toNat ∧ (statusOut s).toNat / 2 % 4 = s.status.err.toNat ∧
    (statusOut s).toNat / 8 = 0

/-- R206: the only fault is that of a FLUSH accepted while some voxel is unwritten, no step follows it, and nothing is refused. -/
def Obligations.OnlyAnUnwrittenFlushFaults : Prop :=
  ∀ s : State,
    (∀ r, step s = .fault r ↔ r = .uninitialisedVoxel ∧ ∃ w, Accepts s w ∧ opOf w = 7 ∧ ∃ i : Fin 64, s.defined[i] = false) ∧
    (∀ r, step s ≠ .refused r) ∧ ∀ r k, step s = .fault r → core.run (k + 1) s = .fault r

/-! ### The gamma table and the function ports -/

/-- R100: the build's gamma table has the three properties of the spec. -/
def Obligations.GammaTableHasTheSpecsProperties : Prop := Config.gamma.Admissible

/-- R100, R101: every form `gammaOf` gives is admissible, every admissible table has that form, so the model shuts none out; and
admissible tables are monotone and keep black and white. -/
def Obligations.GammaFormIsExactlyTheAdmissibleTables : Prop :=
  (∀ raw, (gammaOf raw).Admissible) ∧ (∀ g : GammaTable, g.Admissible → gammaOf g = g) ∧
  ∀ g : GammaTable, g.Admissible → (∀ u v : Byte, u ≤ v → g u ≤ g v) ∧
    gammaColor g ⟨0, 0, 0⟩ = ⟨0, 0, 0⟩ ∧ gammaColor g ⟨255, 255, 255⟩ = ⟨255, 255, 255⟩

/-- R101: the GAMMA port. -/
def Obligations.GammaPortLooksUpTheTable : Prop :=
  ∀ (v : Byte) (s : State), ∃ t, exec (.gamma v) s = .next t ∧ OnlyPinsBecome { s.pins with gammaIn := v } s t ∧
    gammaOut t = Config.gamma v ∧ (v = 0 → gammaOut t = 0) ∧ (v = 255 → gammaOut t = 255) ∧
    ∀ u : Byte, u ≤ v → Config.gamma u ≤ gammaOut t

/-- R103, R104: the WHEEL port, in exact integers: no channel leaves 0 to 255. -/
def Obligations.WheelPortFollowsTheThreeRamps : Prop :=
  ∀ (p : Byte) (s : State), ∃ t, exec (.wheel p) s = .next t ∧ OnlyPinsBecome { s.pins with wheelPos := p } s t ∧
    wheelOut t = packColor (wheelColor p) ∧
    (p.toNat < 85 → (wheelOut t).toNat = 3 * p.toNat * 2 ^ 16 + (255 - 3 * p.toNat) * 2 ^ 8) ∧
    (85 ≤ p.toNat → p.toNat < 170 → (wheelOut t).toNat = (255 - 3 * (p.toNat - 85)) * 2 ^ 16 + 3 * (p.toNat - 85)) ∧
    (170 ≤ p.toNat → (wheelOut t).toNat = 3 * (p.toNat - 170) * 2 ^ 8 + (255 - 3 * (p.toNat - 170)))

/-- R105, R109: the FADE port: each channel of the result depends on that channel and the factor alone. -/
def Obligations.FadePortScalesEachChannel : Prop :=
  ∀ (rgb : Word24) (factor : Word32) (s : State), ∃ t, exec (.fade rgb factor) s = .next t ∧
    OnlyPinsBecome { s.pins with fadeRgb := rgb, fadeFactor := factor } s t ∧
    (fadeOut t).toNat / 2 ^ 16 = (fadeChannel (BitVec.ofNat 8 (rgb.toNat / 2 ^ 16)) factor).toNat ∧
    (fadeOut t).toNat / 2 ^ 8 % 256 = (fadeChannel (BitVec.ofNat 8 (rgb.toNat / 2 ^ 8)) factor).toNat ∧
    (fadeOut t).toNat % 256 = (fadeChannel (BitVec.ofNat 8 rgb.toNat) factor).toNat ∧
    (rgb = 0xC86432 → factor = 0x3F000000 → fadeOut t = 0x643219)

/-- R106: for a finite factor the channel is that of the rule's exact formulation, in rationals; the product with an infinity is
that infinity, or NaN for v = 0, and a NaN gives 0. Which bits stand for which value is the layout of R82 and
notes/assumptions/18.md (PRESUMED), not R106's words. -/
def Obligations.FadeChannelIsTheExactFormulation : Prop :=
  ∀ (v : Byte) (f : Word32),
    (f.toNat / 2 ^ 23 % 256 < 255 → ((fadeChannel v f).toNat : ℤ) = fadeExact ((v.toNat : ℚ) * factorValue f)) ∧
    (f.toNat / 2 ^ 23 % 256 = 255 →
      fadeChannel v f = if f.toNat % 2 ^ 23 = 0 ∧ v ≠ 0 ∧ f.toNat / 2 ^ 31 = 0 then 255 else 0)

/-- R107: the corner cases of the fade, per channel. Which bits are the zeros, the negatives, 1.0, the infinities, the NaNs and the
subnormals is the layout of R82 and notes/assumptions/18.md (PRESUMED), not R107's words. -/
def Obligations.FadeCornerCases : Prop :=
  (∀ (v : Byte) (f : Word32),
    (f.toNat % 2 ^ 31 = 0 → fadeChannel v f = 0) ∧
    (f.toNat / 2 ^ 31 = 1 → fadeChannel v f = 0) ∧
    (f = 0x3F800000 → fadeChannel v f = v) ∧
    (f = 0x7F800000 → fadeChannel v f = if v = 0 then 0 else 255) ∧
    (f.toNat / 2 ^ 23 % 256 = 255 → f.toNat % 2 ^ 23 ≠ 0 → fadeChannel v f = 0) ∧
    (f.toNat / 2 ^ 23 % 256 = 0 → fadeChannel v f = 0) ∧
    (v = 0 → fadeChannel v f = 0)) ∧
  fadeChannel 200 0x40000000 = 255 ∧ fadeChannel 255 0x3F000000 = 127 ∧ fadeChannel 3 0x3F000000 = 1 ∧
    fadeChannel 3 0x3FD55555 = 5

/-- R127, R81: the ENCODE port: byte k of the encoder's sequence is `enc_out[8k+7 : 8k]`, with no gamma (R130). -/
def Obligations.EncodePortPacksTheSequence : Prop :=
  ∀ (rgb : Word24) (s : State), ∃ t, exec (.encode rgb) s = .next t ∧ OnlyPinsBecome { s.pins with encRgb := rgb } s t ∧
    ∀ k < bytesPerColor Config.enc,
      (encodeColor Config.enc (unpackColor rgb))[k]? = some (BitVec.ofNat 8 ((encOut t).toNat / 2 ^ (8 * k)))

/-- R37, R69: each port's output is a function of that port's inputs alone, whatever the rest of the state. -/
def Obligations.PortOutputsFollowTheirOwnInputs : Prop :=
  ∀ s t : State, (s.pins.gammaIn = t.pins.gammaIn → gammaOut s = gammaOut t) ∧
    (s.pins.wheelPos = t.pins.wheelPos → wheelOut s = wheelOut t) ∧
    (s.pins.fadeRgb = t.pins.fadeRgb → s.pins.fadeFactor = t.pins.fadeFactor → fadeOut s = fadeOut t) ∧
    (s.pins.encRgb = t.pins.encRgb → encOut s = encOut t)

/-- R69, R181, R207: using a port changes no state of the block and no STATUS, and does not disturb a FLUSH: the cycle is that in
which the host makes no move, but for the port's inputs. -/
def Obligations.PortUseDisturbsNothing : Prop :=
  ∀ (s : State) (p : PortUse) rest, s.host = .drive p :: rest →
    ∃ t u, step s = .next t ∧ step { s with host := .wait :: rest } = .next u ∧ { t with pins := u.pins } = u

/-! ### The encoder -/

/-- R120 to R126: the bytes of both encodings, bit by bit, and their number. -/
def Obligations.EncoderBytesBitByBit : Prop :=
  ∀ c : Color,
    let bit := fun k : Nat => (if k / 8 = 0 then c.r else if k / 8 = 1 then c.g else c.b).toNat / 2 ^ (7 - k % 8) % 2
    (encodeColor .bytePerBit c).length = 24 ∧ (encodeColor .nibblePerBit c).length = 12 ∧
    (∀ k < 24, (encodeColor .bytePerBit c)[k]? = some (if bit k = 1 then 0xFC else 0xC0)) ∧
    ∀ k < 12, (encodeColor .nibblePerBit c)[k]?.map BitVec.toNat =
      some (16 * (if bit (2 * k) = 1 then 0xE else 0x8) + if bit (2 * k + 1) = 1 then 0xE else 0x8)

/-- R129: reading the patterns gives the colour back, so the encoder is injective. -/
def Obligations.EncodedColourIsRecovered : Prop :=
  ∀ (e : Enc), (∀ c : Color, recoverColor e (encodeColor e c) = some c) ∧
    ∀ c d : Color, encodeColor e c = encodeColor e d → c = d

/-- R131, R57: on a line that sends bit 7 first, each logical bit is high for three quarters of its slot or one quarter. -/
def Obligations.EncodedColourOnTheLine : Prop :=
  ∀ (e : Enc) (c : Color),
    lineSubBits (encodeColor e c) = (List.range 24).flatMap fun k => pulse e (logicalBit c k)

/-! ### FLUSH -/

/-- R171: the acceptance of FLUSH, for every state: the first byte of the frame is offered, or the model faults. -/
def Obligations.FlushIsAcceptedOrFaults : Prop :=
  ∀ s : State,
    ((∀ i : Fin 64, s.defined[i] = true) →
      ∃ t, exec .flush s = .next t ∧ t.status.busy = true ∧ t.status.err = s.status.err ∧ t.serVox = 0 ∧ t.serByte = 0 ∧
        t.txValid = true ∧ (encodeColor Config.enc (gammaColor Config.gamma s.fb[0])).head? = some t.txData ∧
        t.fb = s.fb ∧ t.defined = s.defined ∧ t.pins = s.pins ∧ t.host = s.host ∧ t.txReady = s.txReady ∧
        t.transferred = s.transferred ∧ t.draws = s.draws) ∧
    ((∃ i : Fin 64, s.defined[i] = false) → exec .flush s = .fault .uninitialisedVoxel)

/-- R172, R173: the frame byte sequence of a frame buffer, and its length. -/
def Obligations.FrameByteSequence : Prop :=
  ∀ (e : Enc) (g : GammaTable) (fb : Vector Color 64),
    (frame e g fb).length = 64 * bytesPerColor e ∧ (frame .bytePerBit g fb).length = 1536 ∧
    (frame .nibblePerBit g fb).length = 768 ∧
    ∀ i k (h : i < 64), k < bytesPerColor e →
      (frame e g fb)[i * bytesPerColor e + k]? = (encodeColor e (gammaColor g fb[i]))[k]?

/-- R175, R176: a transfer that is not the last: the byte is transferred, the counters name the next one, and it is offered. -/
def Obligations.TransferOffersTheNextByte : Prop :=
  ∀ (s : State) answers, s.host = [] → s.txValid = true → s.txReady = true :: answers →
    s.serByte.toNat < bytesPerColor Config.enc → bytePosition Config.enc s + 1 < frameLength Config.enc →
    ∃ t, step s = .next t ∧ t.transferred = s.transferred ++ [s.txData] ∧
      bytePosition Config.enc t = bytePosition Config.enc s + 1 ∧ t.serByte.toNat < bytesPerColor Config.enc ∧
      (t.serVox = if s.serByte.toNat + 1 = bytesPerColor Config.enc then s.serVox + 1 else s.serVox) ∧
      (frame Config.enc Config.gamma s.fb)[bytePosition Config.enc t]? = some t.txData ∧
      t.txValid = true ∧ t.status = s.status ∧ t.fb = s.fb ∧ t.defined = s.defined ∧ t.pins = s.pins ∧ t.host = [] ∧
      t.txReady = answers ∧ t.draws = s.draws

/-- R177: the last transfer completes the FLUSH, and in the next cycle the block is ready. -/
def Obligations.LastTransferCompletesFlush : Prop :=
  ∀ (s : State) answers, s.host = [] → s.txValid = true → s.txReady = true :: answers →
    bytePosition Config.enc s + 1 = frameLength Config.enc →
    ∃ t, step s = .next t ∧ t.transferred = s.transferred ++ [s.txData] ∧ t.txValid = false ∧ t.serVox = 0 ∧ t.serByte = 0 ∧
      t.status.busy = false ∧ t.status.err = 0 ∧ cmdReadyOut t = true ∧ t.fb = s.fb ∧ t.defined = s.defined ∧
      t.pins = s.pins ∧ t.host = [] ∧ t.txReady = answers

/-- R178: while the transmitter does not accept, the block keeps offering the same byte and stays BUSY, however long: the state
after k cycles differs only in the answers used up. Reset ends it. -/
def Obligations.StalledFlushWaitsForEver : Prop :=
  ∀ (s : State) (k n : Nat) w, Inv s → s.status.busy = true → s.txReady = List.replicate n false →
    s.host = [.offer w] ∨ s.host = [] →
    core.run k s = .next { s with txReady := List.replicate (n - k) false } ∧
    ∃ t, step { s with host := .rst :: s.host } = .next t ∧ t.status.busy = false

/-- R184 (R172, R188): a FLUSH accepted in an idle, fully written block transfers exactly the bytes of the sequential program, voxel
by voxel in index order, each voxel's encoded gamma-corrected colour byte by byte, whatever pauses the transmitter makes, and then
has completed: no byte is offered, ERR is OK, FB and DEF are as they were, and a word the host has offered meanwhile is still
there. -/
def Obligations.FlushTransfersExactlyTheFrame : Prop :=
  ∀ (s : State) (w : Word64) (later : List HostMove) (answers more : List Bool), Inv s →
    s.host = .offer w :: later → s.status.busy = false → opOf w = 7 → (∀ i : Fin 64, s.defined[i] = true) →
    later = [] ∨ (∃ v rest, later = .offer v :: rest) →
    s.txReady = answers ++ true :: more → answers.count true + 1 = frameLength Config.enc →
    ∃ t, core.run (answers.length + 2) s = .next t ∧
      t.transferred = s.transferred ++
        (List.finRange 64).flatMap (fun i => encodeColor Config.enc (gammaColor Config.gamma s.fb[i])) ∧
      t.status.busy = false ∧ t.status.err = 0 ∧ t.txValid = false ∧ t.serVox = 0 ∧ t.serByte = 0 ∧
      t.fb = s.fb ∧ t.defined = s.defined ∧ t.pins = s.pins ∧ t.host = later ∧ t.txReady = more

/-! ### Invariants and safe runs -/

/-- The state after reset meets the invariant. -/
def Obligations.InvariantHoldsAtReset : Prop := Inv State.reset

/-- R31, R175, R176, R183, R200: every step, from every state that meets the invariant, keeps it. -/
def Obligations.EveryStepKeepsTheInvariant : Prop := ∀ s t : State, Inv s → step s = .next t → Inv t

/-- R236, R243: after INIT (or FILL) the next command sees its writes: a FLUSH accepted in the next cycle offers the first byte of
the background's encoding and does not fault. -/
def Obligations.InitThenFlushOffersTheBackground : Prop :=
  ∀ (s : State) (v w : Word64) rest, s.status.busy = false → s.host = .offer v :: .offer w :: rest →
    opOf v = 1 ∨ opOf v = 2 → opOf w = 7 →
    ∃ t, core.run 2 s = .next t ∧ t.status.busy = true ∧ t.txValid = true ∧
      (encodeColor Config.enc (gammaColor Config.gamma (colOf v))).head? = some t.txData

/-- R206, R27: where every voxel is written, a step with rst = 0, whatever the host and the transmitter do in it, goes on to a next
state in which every voxel is written: the step lemma behind `RunThatBeginsWithInitNeverStops`. -/
def Obligations.FullyWrittenBlockGoesOn : Prop :=
  ∀ s : State, (∀ i : Fin 64, s.defined[i] = true) → rstIn s = false →
    ∃ t, step s = .next t ∧ ∀ i : Fin 64, t.defined[i] = true

/-- R206, R236: once the host has issued INIT or FILL, no run without a reset ever stops, whatever words and port uses follow and
however the transmitter answers. -/
def Obligations.RunThatBeginsWithInitNeverStops : Prop :=
  ∀ (s : State) (v : Word64) (rest : List HostMove) (k : Nat), s.status.busy = false → s.host = .offer v :: rest →
    opOf v = 1 ∨ opOf v = 2 → (∀ m ∈ rest, m ≠ .rst) → SafeFor k s

/-- R232, R236: after a cycle with rst = 1 every voxel is unwritten again, so a FLUSH that comes next faults. -/
def Obligations.FlushRightAfterResetFaults : Prop :=
  ∀ (s : State) (w : Word64) rest, s.host = .rst :: .offer w :: rest → opOf w = 7 →
    core.run 2 s = .fault .uninitialisedVoxel
end

