-- ==== Sys2Proof/Laws/Config.lean ====
section
/-!
SUPPORT. The form of the gamma table: the running maximum is a channel value and never falls.
-/

namespace Sys2Proof

theorem risingMax_le (raw : Byte → Byte) (n : Nat) : risingMax raw n ≤ 255 := by
  induction n with
  | zero => simp [risingMax]
  | succ n ih =>
    have := (raw (BitVec.ofNat 8 (n + 1))).isLt
    simp only [risingMax]
    omega

theorem risingMax_le_succ (raw : Byte → Byte) (n : Nat) : risingMax raw n ≤ risingMax raw (n + 1) := by
  simp only [risingMax]
  omega

theorem gammaOf_toNat (raw : Byte → Byte) (v : Byte) (h : v ≠ 255) : (gammaOf raw v).toNat = risingMax raw v.toNat := by
  have := risingMax_le raw v.toNat
  simp only [gammaOf, if_neg h, BitVec.toNat_ofNat]
  omega

end Sys2Proof
end

