-- ==== Sys2Proof/Laws/State.lean ====
section
/-!
SUPPORT. One lemma for each field and each update of State, so that no later proof unfolds a record update.
-/

namespace Sys2Proof.Machine

/-! ### writeVoxels -/

@[simp] theorem writeVoxels_fb (vs : VoxelSet) (c : Color) (s : State) : (writeVoxels vs c s).fb = voxels fun i => if vs i.val then c else s.fb[i] := rfl
@[simp] theorem writeVoxels_defined (vs : VoxelSet) (c : Color) (s : State) : (writeVoxels vs c s).defined = voxels fun i => if vs i.val then true else s.defined[i] := rfl
@[simp] theorem writeVoxels_status (vs : VoxelSet) (c : Color) (s : State) : (writeVoxels vs c s).status = s.status := rfl
@[simp] theorem writeVoxels_serVox (vs : VoxelSet) (c : Color) (s : State) : (writeVoxels vs c s).serVox = s.serVox := rfl
@[simp] theorem writeVoxels_serByte (vs : VoxelSet) (c : Color) (s : State) : (writeVoxels vs c s).serByte = s.serByte := rfl
@[simp] theorem writeVoxels_txValid (vs : VoxelSet) (c : Color) (s : State) : (writeVoxels vs c s).txValid = s.txValid := rfl
@[simp] theorem writeVoxels_txData (vs : VoxelSet) (c : Color) (s : State) : (writeVoxels vs c s).txData = s.txData := rfl
@[simp] theorem writeVoxels_pins (vs : VoxelSet) (c : Color) (s : State) : (writeVoxels vs c s).pins = s.pins := rfl
@[simp] theorem writeVoxels_host (vs : VoxelSet) (c : Color) (s : State) : (writeVoxels vs c s).host = s.host := rfl
@[simp] theorem writeVoxels_txReady (vs : VoxelSet) (c : Color) (s : State) : (writeVoxels vs c s).txReady = s.txReady := rfl
@[simp] theorem writeVoxels_transferred (vs : VoxelSet) (c : Color) (s : State) : (writeVoxels vs c s).transferred = s.transferred := rfl
@[simp] theorem writeVoxels_draws (vs : VoxelSet) (c : Color) (s : State) : (writeVoxels vs c s).draws = s.draws := rfl

/-! ### setErr -/

@[simp] theorem setErr_fb (code : ErrCode) (s : State) : (setErr code s).fb = s.fb := rfl
@[simp] theorem setErr_defined (code : ErrCode) (s : State) : (setErr code s).defined = s.defined := rfl
@[simp] theorem setErr_status (code : ErrCode) (s : State) : (setErr code s).status = ⟨s.status.busy, errBits code⟩ := rfl
@[simp] theorem setErr_serVox (code : ErrCode) (s : State) : (setErr code s).serVox = s.serVox := rfl
@[simp] theorem setErr_serByte (code : ErrCode) (s : State) : (setErr code s).serByte = s.serByte := rfl
@[simp] theorem setErr_txValid (code : ErrCode) (s : State) : (setErr code s).txValid = s.txValid := rfl
@[simp] theorem setErr_txData (code : ErrCode) (s : State) : (setErr code s).txData = s.txData := rfl
@[simp] theorem setErr_pins (code : ErrCode) (s : State) : (setErr code s).pins = s.pins := rfl
@[simp] theorem setErr_host (code : ErrCode) (s : State) : (setErr code s).host = s.host := rfl
@[simp] theorem setErr_txReady (code : ErrCode) (s : State) : (setErr code s).txReady = s.txReady := rfl
@[simp] theorem setErr_transferred (code : ErrCode) (s : State) : (setErr code s).transferred = s.transferred := rfl
@[simp] theorem setErr_draws (code : ErrCode) (s : State) : (setErr code s).draws = s.draws := rfl

/-! ### setBusy -/

@[simp] theorem setBusy_fb (b : Bool) (s : State) : (setBusy b s).fb = s.fb := rfl
@[simp] theorem setBusy_defined (b : Bool) (s : State) : (setBusy b s).defined = s.defined := rfl
@[simp] theorem setBusy_status (b : Bool) (s : State) : (setBusy b s).status = ⟨b, s.status.err⟩ := rfl
@[simp] theorem setBusy_serVox (b : Bool) (s : State) : (setBusy b s).serVox = s.serVox := rfl
@[simp] theorem setBusy_serByte (b : Bool) (s : State) : (setBusy b s).serByte = s.serByte := rfl
@[simp] theorem setBusy_txValid (b : Bool) (s : State) : (setBusy b s).txValid = s.txValid := rfl
@[simp] theorem setBusy_txData (b : Bool) (s : State) : (setBusy b s).txData = s.txData := rfl
@[simp] theorem setBusy_pins (b : Bool) (s : State) : (setBusy b s).pins = s.pins := rfl
@[simp] theorem setBusy_host (b : Bool) (s : State) : (setBusy b s).host = s.host := rfl
@[simp] theorem setBusy_txReady (b : Bool) (s : State) : (setBusy b s).txReady = s.txReady := rfl
@[simp] theorem setBusy_transferred (b : Bool) (s : State) : (setBusy b s).transferred = s.transferred := rfl
@[simp] theorem setBusy_draws (b : Bool) (s : State) : (setBusy b s).draws = s.draws := rfl

/-! ### drawNext -/

@[simp] theorem drawNext_fb (s : State) : (drawNext s).fb = s.fb := rfl
@[simp] theorem drawNext_defined (s : State) : (drawNext s).defined = s.defined := rfl
@[simp] theorem drawNext_status (s : State) : (drawNext s).status = s.status := rfl
@[simp] theorem drawNext_serVox (s : State) : (drawNext s).serVox = s.serVox := rfl
@[simp] theorem drawNext_serByte (s : State) : (drawNext s).serByte = s.serByte := rfl
@[simp] theorem drawNext_txValid (s : State) : (drawNext s).txValid = s.txValid := rfl
@[simp] theorem drawNext_txData (s : State) : (drawNext s).txData = s.txData := rfl
@[simp] theorem drawNext_pins (s : State) : (drawNext s).pins = s.pins := rfl
@[simp] theorem drawNext_host (s : State) : (drawNext s).host = s.host := rfl
@[simp] theorem drawNext_txReady (s : State) : (drawNext s).txReady = s.txReady := rfl
@[simp] theorem drawNext_transferred (s : State) : (drawNext s).transferred = s.transferred := rfl
@[simp] theorem drawNext_draws (s : State) : (drawNext s).draws = s.draws + 1 := rfl

/-! ### loseTxData -/

@[simp] theorem loseTxData_fb (s : State) : (loseTxData s).fb = s.fb := rfl
@[simp] theorem loseTxData_defined (s : State) : (loseTxData s).defined = s.defined := rfl
@[simp] theorem loseTxData_status (s : State) : (loseTxData s).status = s.status := rfl
@[simp] theorem loseTxData_serVox (s : State) : (loseTxData s).serVox = s.serVox := rfl
@[simp] theorem loseTxData_serByte (s : State) : (loseTxData s).serByte = s.serByte := rfl
@[simp] theorem loseTxData_txValid (s : State) : (loseTxData s).txValid = s.txValid := rfl
@[simp] theorem loseTxData_txData (s : State) : (loseTxData s).txData = Config.freeTxData s.draws := rfl
@[simp] theorem loseTxData_pins (s : State) : (loseTxData s).pins = s.pins := rfl
@[simp] theorem loseTxData_host (s : State) : (loseTxData s).host = s.host := rfl
@[simp] theorem loseTxData_txReady (s : State) : (loseTxData s).txReady = s.txReady := rfl
@[simp] theorem loseTxData_transferred (s : State) : (loseTxData s).transferred = s.transferred := rfl
@[simp] theorem loseTxData_draws (s : State) : (loseTxData s).draws = s.draws + 1 := rfl

/-! ### idleSerializer -/

@[simp] theorem idleSerializer_fb (s : State) : (idleSerializer s).fb = s.fb := rfl
@[simp] theorem idleSerializer_defined (s : State) : (idleSerializer s).defined = s.defined := rfl
@[simp] theorem idleSerializer_status (s : State) : (idleSerializer s).status = s.status := rfl
@[simp] theorem idleSerializer_serVox (s : State) : (idleSerializer s).serVox = 0 := rfl
@[simp] theorem idleSerializer_serByte (s : State) : (idleSerializer s).serByte = 0 := rfl
@[simp] theorem idleSerializer_txValid (s : State) : (idleSerializer s).txValid = false := rfl
@[simp] theorem idleSerializer_txData (s : State) : (idleSerializer s).txData = s.txData := rfl
@[simp] theorem idleSerializer_pins (s : State) : (idleSerializer s).pins = s.pins := rfl
@[simp] theorem idleSerializer_host (s : State) : (idleSerializer s).host = s.host := rfl
@[simp] theorem idleSerializer_txReady (s : State) : (idleSerializer s).txReady = s.txReady := rfl
@[simp] theorem idleSerializer_transferred (s : State) : (idleSerializer s).transferred = s.transferred := rfl
@[simp] theorem idleSerializer_draws (s : State) : (idleSerializer s).draws = s.draws := rfl

/-! ### endHostMove -/

@[simp] theorem endHostMove_fb (s : State) : (endHostMove s).fb = s.fb := rfl
@[simp] theorem endHostMove_defined (s : State) : (endHostMove s).defined = s.defined := rfl
@[simp] theorem endHostMove_status (s : State) : (endHostMove s).status = s.status := rfl
@[simp] theorem endHostMove_serVox (s : State) : (endHostMove s).serVox = s.serVox := rfl
@[simp] theorem endHostMove_serByte (s : State) : (endHostMove s).serByte = s.serByte := rfl
@[simp] theorem endHostMove_txValid (s : State) : (endHostMove s).txValid = s.txValid := rfl
@[simp] theorem endHostMove_txData (s : State) : (endHostMove s).txData = s.txData := rfl
@[simp] theorem endHostMove_pins (s : State) : (endHostMove s).pins = s.pins := rfl
@[simp] theorem endHostMove_host (s : State) : (endHostMove s).host = s.host.tail := rfl
@[simp] theorem endHostMove_txReady (s : State) : (endHostMove s).txReady = s.txReady := rfl
@[simp] theorem endHostMove_transferred (s : State) : (endHostMove s).transferred = s.transferred := rfl
@[simp] theorem endHostMove_draws (s : State) : (endHostMove s).draws = s.draws := rfl

/-! ### endTxAnswer -/

@[simp] theorem endTxAnswer_fb (s : State) : (endTxAnswer s).fb = s.fb := rfl
@[simp] theorem endTxAnswer_defined (s : State) : (endTxAnswer s).defined = s.defined := rfl
@[simp] theorem endTxAnswer_status (s : State) : (endTxAnswer s).status = s.status := rfl
@[simp] theorem endTxAnswer_serVox (s : State) : (endTxAnswer s).serVox = s.serVox := rfl
@[simp] theorem endTxAnswer_serByte (s : State) : (endTxAnswer s).serByte = s.serByte := rfl
@[simp] theorem endTxAnswer_txValid (s : State) : (endTxAnswer s).txValid = s.txValid := rfl
@[simp] theorem endTxAnswer_txData (s : State) : (endTxAnswer s).txData = s.txData := rfl
@[simp] theorem endTxAnswer_pins (s : State) : (endTxAnswer s).pins = s.pins := rfl
@[simp] theorem endTxAnswer_host (s : State) : (endTxAnswer s).host = s.host := rfl
@[simp] theorem endTxAnswer_txReady (s : State) : (endTxAnswer s).txReady = s.txReady.tail := rfl
@[simp] theorem endTxAnswer_transferred (s : State) : (endTxAnswer s).transferred = s.transferred := rfl
@[simp] theorem endTxAnswer_draws (s : State) : (endTxAnswer s).draws = s.draws := rfl

/-! ### completeFlush -/

@[simp] theorem completeFlush_fb (s : State) : (completeFlush s).fb = s.fb := rfl
@[simp] theorem completeFlush_defined (s : State) : (completeFlush s).defined = s.defined := rfl
@[simp] theorem completeFlush_status (s : State) : (completeFlush s).status = ⟨false, 0⟩ := rfl
@[simp] theorem completeFlush_serVox (s : State) : (completeFlush s).serVox = 0 := rfl
@[simp] theorem completeFlush_serByte (s : State) : (completeFlush s).serByte = 0 := rfl
@[simp] theorem completeFlush_txValid (s : State) : (completeFlush s).txValid = false := rfl
@[simp] theorem completeFlush_txData (s : State) : (completeFlush s).txData = Config.freeTxData s.draws := rfl
@[simp] theorem completeFlush_pins (s : State) : (completeFlush s).pins = s.pins := rfl
@[simp] theorem completeFlush_host (s : State) : (completeFlush s).host = s.host := rfl
@[simp] theorem completeFlush_txReady (s : State) : (completeFlush s).txReady = s.txReady := rfl
@[simp] theorem completeFlush_transferred (s : State) : (completeFlush s).transferred = s.transferred := rfl
@[simp] theorem completeFlush_draws (s : State) : (completeFlush s).draws = s.draws + 1 := rfl

/-! ### applyReset -/

@[simp] theorem applyReset_fb (s : State) : (applyReset s).fb = voxels fun i => Config.freeVoxel s.draws i.val := rfl
@[simp] theorem applyReset_defined (s : State) : (applyReset s).defined = Vector.replicate 64 false := rfl
@[simp] theorem applyReset_status (s : State) : (applyReset s).status = ⟨false, 0⟩ := rfl
@[simp] theorem applyReset_serVox (s : State) : (applyReset s).serVox = 0 := rfl
@[simp] theorem applyReset_serByte (s : State) : (applyReset s).serByte = 0 := rfl
@[simp] theorem applyReset_txValid (s : State) : (applyReset s).txValid = false := rfl
@[simp] theorem applyReset_txData (s : State) : (applyReset s).txData = Config.freeTxData s.draws := rfl
@[simp] theorem applyReset_pins (s : State) : (applyReset s).pins = s.pins := rfl
@[simp] theorem applyReset_host (s : State) : (applyReset s).host = s.host := rfl
@[simp] theorem applyReset_txReady (s : State) : (applyReset s).txReady = s.txReady := rfl
@[simp] theorem applyReset_transferred (s : State) : (applyReset s).transferred = s.transferred := rfl
@[simp] theorem applyReset_draws (s : State) : (applyReset s).draws = s.draws + 1 := rfl

/-! ### sendByte -/

@[simp] theorem sendByte_fb (s : State) : (sendByte s).fb = s.fb := rfl
@[simp] theorem sendByte_defined (s : State) : (sendByte s).defined = s.defined := rfl
@[simp] theorem sendByte_status (s : State) : (sendByte s).status = s.status := rfl
@[simp] theorem sendByte_serVox (s : State) : (sendByte s).serVox = s.serVox := rfl
@[simp] theorem sendByte_serByte (s : State) : (sendByte s).serByte = s.serByte := rfl
@[simp] theorem sendByte_txValid (s : State) : (sendByte s).txValid = s.txValid := rfl
@[simp] theorem sendByte_txData (s : State) : (sendByte s).txData = s.txData := rfl
@[simp] theorem sendByte_pins (s : State) : (sendByte s).pins = s.pins := rfl
@[simp] theorem sendByte_host (s : State) : (sendByte s).host = s.host := rfl
@[simp] theorem sendByte_txReady (s : State) : (sendByte s).txReady = s.txReady := rfl
@[simp] theorem sendByte_transferred (s : State) : (sendByte s).transferred = s.transferred ++ [s.txData] := rfl
@[simp] theorem sendByte_draws (s : State) : (sendByte s).draws = s.draws := rfl

/-! ### loadTxData -/

@[simp] theorem loadTxData_fb (b : Byte) (s : State) : (loadTxData b s).fb = s.fb := rfl
@[simp] theorem loadTxData_defined (b : Byte) (s : State) : (loadTxData b s).defined = s.defined := rfl
@[simp] theorem loadTxData_status (b : Byte) (s : State) : (loadTxData b s).status = s.status := rfl
@[simp] theorem loadTxData_serVox (b : Byte) (s : State) : (loadTxData b s).serVox = s.serVox := rfl
@[simp] theorem loadTxData_serByte (b : Byte) (s : State) : (loadTxData b s).serByte = s.serByte := rfl
@[simp] theorem loadTxData_txValid (b : Byte) (s : State) : (loadTxData b s).txValid = s.txValid := rfl
@[simp] theorem loadTxData_txData (b : Byte) (s : State) : (loadTxData b s).txData = b := rfl
@[simp] theorem loadTxData_pins (b : Byte) (s : State) : (loadTxData b s).pins = s.pins := rfl
@[simp] theorem loadTxData_host (b : Byte) (s : State) : (loadTxData b s).host = s.host := rfl
@[simp] theorem loadTxData_txReady (b : Byte) (s : State) : (loadTxData b s).txReady = s.txReady := rfl
@[simp] theorem loadTxData_transferred (b : Byte) (s : State) : (loadTxData b s).transferred = s.transferred := rfl
@[simp] theorem loadTxData_draws (b : Byte) (s : State) : (loadTxData b s).draws = s.draws := rfl

/-! ### drivePins -/

@[simp] theorem drivePins_fb (pins : PortPins) (s : State) : (drivePins pins s).fb = s.fb := rfl
@[simp] theorem drivePins_defined (pins : PortPins) (s : State) : (drivePins pins s).defined = s.defined := rfl
@[simp] theorem drivePins_status (pins : PortPins) (s : State) : (drivePins pins s).status = s.status := rfl
@[simp] theorem drivePins_serVox (pins : PortPins) (s : State) : (drivePins pins s).serVox = s.serVox := rfl
@[simp] theorem drivePins_serByte (pins : PortPins) (s : State) : (drivePins pins s).serByte = s.serByte := rfl
@[simp] theorem drivePins_txValid (pins : PortPins) (s : State) : (drivePins pins s).txValid = s.txValid := rfl
@[simp] theorem drivePins_txData (pins : PortPins) (s : State) : (drivePins pins s).txData = s.txData := rfl
@[simp] theorem drivePins_pins (pins : PortPins) (s : State) : (drivePins pins s).pins = pins := rfl
@[simp] theorem drivePins_host (pins : PortPins) (s : State) : (drivePins pins s).host = s.host := rfl
@[simp] theorem drivePins_txReady (pins : PortPins) (s : State) : (drivePins pins s).txReady = s.txReady := rfl
@[simp] theorem drivePins_transferred (pins : PortPins) (s : State) : (drivePins pins s).transferred = s.transferred := rfl
@[simp] theorem drivePins_draws (pins : PortPins) (s : State) : (drivePins pins s).draws = s.draws := rfl

/-! ### startFrame -/

@[simp] theorem startFrame_fb (e : Enc) (g : GammaTable) (s : State) : (startFrame e g s).fb = s.fb := rfl
@[simp] theorem startFrame_defined (e : Enc) (g : GammaTable) (s : State) : (startFrame e g s).defined = s.defined := rfl
@[simp] theorem startFrame_status (e : Enc) (g : GammaTable) (s : State) : (startFrame e g s).status = ⟨true, s.status.err⟩ := rfl
@[simp] theorem startFrame_serVox (e : Enc) (g : GammaTable) (s : State) : (startFrame e g s).serVox = 0 := rfl
@[simp] theorem startFrame_serByte (e : Enc) (g : GammaTable) (s : State) : (startFrame e g s).serByte = 0 := rfl
@[simp] theorem startFrame_txValid (e : Enc) (g : GammaTable) (s : State) : (startFrame e g s).txValid = true := rfl
@[simp] theorem startFrame_txData (e : Enc) (g : GammaTable) (s : State) : (startFrame e g s).txData = frameByte e g s.fb 0 := rfl
@[simp] theorem startFrame_pins (e : Enc) (g : GammaTable) (s : State) : (startFrame e g s).pins = s.pins := rfl
@[simp] theorem startFrame_host (e : Enc) (g : GammaTable) (s : State) : (startFrame e g s).host = s.host := rfl
@[simp] theorem startFrame_txReady (e : Enc) (g : GammaTable) (s : State) : (startFrame e g s).txReady = s.txReady := rfl
@[simp] theorem startFrame_transferred (e : Enc) (g : GammaTable) (s : State) : (startFrame e g s).transferred = s.transferred := rfl
@[simp] theorem startFrame_draws (e : Enc) (g : GammaTable) (s : State) : (startFrame e g s).draws = s.draws := rfl

/-! ### advanceCounters: only the counters move -/

@[simp] theorem advanceCounters_fb (e : Enc) (s : State) : (advanceCounters e s).fb = s.fb := rfl
@[simp] theorem advanceCounters_defined (e : Enc) (s : State) : (advanceCounters e s).defined = s.defined := rfl
@[simp] theorem advanceCounters_status (e : Enc) (s : State) : (advanceCounters e s).status = s.status := rfl
@[simp] theorem advanceCounters_serVox (e : Enc) (s : State) :
    (advanceCounters e s).serVox = if s.serByte.toNat + 1 = bytesPerColor e then s.serVox + 1 else s.serVox := rfl
@[simp] theorem advanceCounters_serByte (e : Enc) (s : State) :
    (advanceCounters e s).serByte = if s.serByte.toNat + 1 = bytesPerColor e then 0 else s.serByte + 1 := rfl
@[simp] theorem advanceCounters_txValid (e : Enc) (s : State) : (advanceCounters e s).txValid = s.txValid := rfl
@[simp] theorem advanceCounters_txData (e : Enc) (s : State) : (advanceCounters e s).txData = s.txData := rfl
@[simp] theorem advanceCounters_pins (e : Enc) (s : State) : (advanceCounters e s).pins = s.pins := rfl
@[simp] theorem advanceCounters_host (e : Enc) (s : State) : (advanceCounters e s).host = s.host := rfl
@[simp] theorem advanceCounters_txReady (e : Enc) (s : State) : (advanceCounters e s).txReady = s.txReady := rfl
@[simp] theorem advanceCounters_transferred (e : Enc) (s : State) : (advanceCounters e s).transferred = s.transferred := rfl
@[simp] theorem advanceCounters_draws (e : Enc) (s : State) : (advanceCounters e s).draws = s.draws := rfl

end Sys2Proof.Machine
end

