-- ==== Sys2Proof/Laws/Ops.lean ====
section
/-!
SUPPORT. What each shared operation can do, said once, for later proofs to cite instead of unfolding it.
-/

namespace Sys2Proof.Machine

/-! ### The frame buffer as a vector -/

@[simp] theorem voxels_get {α : Type} (f : Fin 64 → α) (i : Nat) (h : i < 64) : (voxels f)[i] = f ⟨i, h⟩ :=
  List.getElem_ofFn (by simpa using h)

theorem voxelAt_eq (fb : Vector Color 64) (i : Nat) (h : i < 64) : voxelAt fb i = fb[i] := by
  simp [voxelAt, Nat.mod_eq_of_lt h]

theorem writeVoxels_voxel (vs : VoxelSet) (c : Color) (s : State) (i : Nat) (h : i < 64) :
    (writeVoxels vs c s).fb[i] = if vs i then c else s.fb[i] := by
  simp

theorem writeVoxels_defined_bit (vs : VoxelSet) (c : Color) (s : State) (i : Nat) (h : i < 64) :
    (writeVoxels vs c s).defined[i] = if vs i then true else s.defined[i] := by
  simp

theorem allDefined_iff (s : State) : allDefined s = true ↔ ∀ i : Fin 64, s.defined[i] = true := by
  unfold allDefined
  rw [List.all_eq_true]
  constructor
  · intro h i
    exact h _ (by simp)
  · intro h x hx
    obtain ⟨i, hi, rfl⟩ := List.getElem_of_mem hx
    simpa using h ⟨i, by simpa using hi⟩

/-! ### Completing a command, raising an error -/

theorem completeWrite_next {vs : VoxelSet} {c : Color} {s t : State} (h : completeWrite vs c s = .next t) :
    t = setErr .ok (writeVoxels vs c s) := by
  unfold completeWrite at h
  exact (Host.Outcome.next.inj h).symm

theorem raiseError_next {code : ErrCode} {s t : State} (h : raiseError code s = .next t) : t = setErr code s := by
  unfold raiseError at h
  exact (Host.Outcome.next.inj h).symm

/-- A fill of an axis always completes: with its sixteen words where the value is below 4, and with IndexOutOfRange and nothing
else where it is not. -/
theorem fillAxis_eq (group : Nat → VoxelSet) (arg : Word32) (c : Color) (s : State) :
    fillAxis group arg c s =
      if arg.toNat < 4 then .next (setErr .ok (writeVoxels (group arg.toNat) c s)) else .next (setErr .indexOutOfRange s) := by
  unfold fillAxis axisInRange completeWrite raiseError
  by_cases h : arg.toNat < 4 <;> simp [h]

/-- SET always completes: with its one word, or with IndexOutOfRange and nothing else. -/
theorem execSet_eq (idx : Word32) (c : Color) (s : State) :
    execSet idx c s =
      if idx.toNat < 64 then .next (setErr .ok (writeVoxels (oneVoxel idx.toNat) c s))
      else .next (setErr .indexOutOfRange s) := by
  unfold execSet indexInRange completeWrite raiseError
  by_cases h : idx.toNat < 64 <;> simp [h]

/-- FLUSH is accepted exactly where every voxel is written, and faults otherwise. -/
theorem acceptFlush_cases (e : Enc) (g : GammaTable) (s : State) :
    (allDefined s = true ∧ acceptFlush e g s = .next (startFrame e g s)) ∨
    (allDefined s = false ∧ acceptFlush e g s = .fault .uninitialisedVoxel) := by
  unfold acceptFlush
  by_cases h : allDefined s = true
  · exact .inl ⟨h, by simp [h]⟩
  · exact .inr ⟨by simpa using h, by simp [h]⟩

/-! ### The byte-stream port -/

/-- What the transmitter's part of a cycle can be: no byte is offered; the byte is not accepted; it is accepted and another is
offered; it is accepted and was the last. -/
theorem transmitterCycle_cases (e : Enc) (g : GammaTable) (s : State) :
    (s.txValid = false ∧ transmitterCycle e g s = s) ∨
    (s.txValid = true ∧ txReadyIn s = false ∧ transmitterCycle e g s = endTxAnswer s) ∨
    (s.txValid = true ∧ txReadyIn s = true ∧ bytePosition e s + 1 ≠ frameLength e ∧
      transmitterCycle e g s =
        loadTxData (offeredByte e g s (bytePosition e s + 1)) (advanceCounters e (sendByte (endTxAnswer s)))) ∨
    (s.txValid = true ∧ txReadyIn s = true ∧ bytePosition e s + 1 = frameLength e ∧
      transmitterCycle e g s = completeFlush (sendByte (endTxAnswer s))) := by
  unfold transmitterCycle
  by_cases hv : s.txValid = true
  · by_cases hr : txReadyIn s = true
    · by_cases hp : bytePosition e s + 1 = frameLength e
      · refine .inr (.inr (.inr ⟨hv, hr, hp, ?_⟩))
        rw [if_pos hv, if_pos hr]
        exact if_pos hp
      · refine .inr (.inr (.inl ⟨hv, hr, hp, ?_⟩))
        rw [if_pos hv, if_pos hr]
        exact if_neg hp
    · exact .inr (.inl ⟨hv, by simpa using hr, by rw [if_pos hv, if_neg hr]⟩)
  · exact .inl ⟨by simpa using hv, if_neg hv⟩

/-- The byte-stream port's part of a cycle writes no voxel, no DEF bit, no port input and no move of the host. -/
theorem transmitterCycle_frame (e : Enc) (g : GammaTable) (s : State) :
    (transmitterCycle e g s).fb = s.fb ∧ (transmitterCycle e g s).defined = s.defined ∧
      (transmitterCycle e g s).pins = s.pins ∧ (transmitterCycle e g s).host = s.host := by
  rcases transmitterCycle_cases e g s with ⟨-, h⟩ | ⟨-, -, h⟩ | ⟨-, -, -, h⟩ | ⟨-, -, -, h⟩ <;> rw [h] <;> simp

/-- The byte-stream port's part of a cycle does not depend on what the host does. -/
theorem transmitterCycle_host (e : Enc) (g : GammaTable) (s : State) (moves : List HostMove) :
    transmitterCycle e g { s with host := moves } = { transmitterCycle e g s with host := moves } := by
  rcases transmitterCycle_cases e g s with ⟨hv, h⟩ | ⟨hv, hr, h⟩ | ⟨hv, hr, hp, h⟩ | ⟨hv, hr, hp, h⟩ <;> rw [h] <;>
    rcases transmitterCycle_cases e g { s with host := moves } with
      ⟨hv', h'⟩ | ⟨hv', hr', h'⟩ | ⟨hv', hr', hp', h'⟩ | ⟨hv', hr', hp', h'⟩ <;>
    first
    | exact h'
    | (rw [hv] at hv'; contradiction)
    | (rw [show txReadyIn { s with host := moves } = txReadyIn s from rfl, hr] at hr'; contradiction)

/-! ### A cycle -/

theorem cycle_of_rst {s : State} {rest : List HostMove} (h : s.host = .rst :: rest) :
    cycle s = .next (applyReset { s with host := rest }) := by
  simp [cycle, h, endHostMove]

theorem cycle_of_accept {s : State} {w : Word64} {rest : List HostMove} (h : s.host = .offer w :: rest)
    (hb : s.status.busy = false) : cycle s = exec (decode w) { s with host := rest } := by
  simp [cycle, h, endHostMove, cmdReadyOut, rstIn, hb]

theorem cycle_of_held {s : State} {w : Word64} {rest : List HostMove} (h : s.host = .offer w :: rest)
    (hb : s.status.busy = true) : cycle s = .next (streamCycle s) := by
  simp [cycle, h, cmdReadyOut, hb]

theorem cycle_of_drive {s : State} {p : PortUse} {rest : List HostMove} (h : s.host = .drive p :: rest) :
    cycle s = exec (portInstr p) (streamCycle { s with host := rest }) := by
  simp [cycle, h, endHostMove]

theorem cycle_of_wait {s : State} {rest : List HostMove} (h : s.host = .wait :: rest) :
    cycle s = .next (streamCycle { s with host := rest }) := by
  simp [cycle, h, endHostMove]

theorem cycle_of_nothing {s : State} (h : s.host = []) : cycle s = .next (streamCycle s) := by
  simp [cycle, h]

/-- A port's use always completes and changes the port's inputs only. -/
theorem exec_portInstr (p : PortUse) (s : State) : ∃ pins, exec (portInstr p) s = .next (drivePins pins s) := by
  cases p <;> exact ⟨_, rfl⟩

end Sys2Proof.Machine
end

