-- ==== Sys2Proof/Laws/PerInstr.lean ====
section
/-!
SUPPORT. Statements about every instruction as syntax, one lemma for each constructor.
-/

namespace Sys2Proof.Laws

namespace EncodedOp

/-- The word an instruction encodes to has, under the opcode table's mask, the table's match (spec/30_encoding.md R76). -/
def Statement (i : Instr) : Prop := (encode i).map (· &&& tableMask) = tableMatch i

/-- The mask keeps OP of a command word and clears its other fields. -/
theorem mask_of_commandWord (op : Byte) (arg : Word32) (col : Word24) :
    commandWord op arg col &&& tableMask = op.setWidth 64 <<< 56 := by
  apply BitVec.eq_of_getLsbD_eq
  intro k hk
  have hm : tableMask.getLsbD k = decide (56 ≤ k) := by
    revert k
    decide
  rw [BitVec.getLsbD_and, hm, commandWord, BitVec.getLsbD_append, BitVec.getLsbD_append]
  by_cases h : 56 ≤ k
  · have h1 : ¬ k < 24 := by omega
    have h2 : ¬ k - 24 < 32 := by omega
    have h3 : k - 24 - 32 = k - 56 := by omega
    simp [h, h1, h2, h3, hk, show ¬ k < 56 by omega]
  · simp [h, BitVec.getLsbD_shiftLeft, show k < 56 by omega]

theorem init (c : Color) : Statement (.init c) := by
  simp [Statement, encode, mask_of_commandWord, tableMatch]
theorem fill (c : Color) : Statement (.fill c) := by
  simp [Statement, encode, mask_of_commandWord, tableMatch]
theorem set (idx : Word32) (c : Color) : Statement (.set idx c) := by
  simp [Statement, encode, mask_of_commandWord, tableMatch]
theorem fillp (p : Word32) (c : Color) : Statement (.fillp p c) := by
  simp [Statement, encode, mask_of_commandWord, tableMatch]
theorem fills (s : Word32) (c : Color) : Statement (.fills s c) := by
  simp [Statement, encode, mask_of_commandWord, tableMatch]
theorem filll (l : Word32) (c : Color) : Statement (.filll l c) := by
  simp [Statement, encode, mask_of_commandWord, tableMatch]
theorem flush : Statement .flush := by
  simp [Statement, encode, mask_of_commandWord, tableMatch]
theorem illegal (op : Byte) : Statement (.illegal op) := by
  simp only [Statement, encode, tableMatch, Option.map_some, mask_of_commandWord]
theorem gamma (v : Byte) : Statement (.gamma v) := rfl
theorem wheel (p : Byte) : Statement (.wheel p) := rfl
theorem fade (rgb : Word24) (factor : Word32) : Statement (.fade rgb factor) := rfl
theorem encode (rgb : Word24) : Statement (.encode rgb) := rfl

end EncodedOp

end Sys2Proof.Laws
end

