-- ==== Sys2Proof/Laws/Run.lean ====
section
/-!
SUPPORT. Runs of several steps, one step at a time.
-/

namespace Sys2Proof

open Machine

theorem run_zero (s : State) : core.run 0 s = .next s := rfl

theorem run_of_next {s t : State} (k : Nat) (h : step s = .next t) : core.run (k + 1) s = core.run k t := by
  simp only [Host.Core.run]
  rw [show core.step s = .next t from h]

theorem run_of_fault {s : State} {r : Fault} (k : Nat) (h : step s = .fault r) : core.run (k + 1) s = .fault r := by
  simp only [Host.Core.run]
  rw [show core.step s = .fault r from h]

end Sys2Proof
end

