-- ==== Sys2Proof/Tests/Slice0.lean ====
section
/-!
SUPPORT. The model's own tests. Every expected value is one of spec/95_test_vectors.md or worked out by hand from the rule
named. The witnesses that the statements' hypotheses can be met stand at the end.
-/

namespace Sys2Proof.Tests

open Machine Certificates

/-! ### WellFormed: the one check (spec/30_encoding.md R77) -/

/-- OP 0x03 is SET's, so it is no illegal OP. -/
theorem test_wellFormed_refuses_illegal_with_mapped_op : (Instr.illegal 0x03).wellFormed = false := by decide
theorem test_wellFormed_illegal_ops : (Instr.illegal 0x00).wellFormed = true ∧ (Instr.illegal 0x08).wellFormed = true := by
  decide

/-! ### Decode: words written out from R70 and the opcode table -/

/-- 00000001, 32 ignored bits set to 1, then red 0x12, green 0x34, blue 0x56 (spec/95, INIT with ARG = 0xFFFFFFFF). -/
theorem test_decode_init :
    decode 0b00000001_11111111111111111111111111111111_000100100011010001010110 = .init ⟨0x12, 0x34, 0x56⟩ := by decide
theorem test_decode_fill : decode 0x0200000000FFFFFF = .fill ⟨0xFF, 0xFF, 0xFF⟩ := by decide
/-- 00000011, ARG 63, blue (R144's example). -/
theorem test_decode_set :
    decode 0b00000011_00000000000000000000000000111111_000000000000000011111111 = .set 63 ⟨0, 0, 0xFF⟩ := by decide
theorem test_decode_set_high_arg : decode 0x03FFFFFFFFFFFFFF = .set 0xFFFFFFFF ⟨0xFF, 0xFF, 0xFF⟩ := by decide
theorem test_decode_fillp : decode 0x0400000003FF0000 = .fillp 3 ⟨0xFF, 0, 0⟩ := by decide
theorem test_decode_fills : decode 0x05FFFFFFFFFF0000 = .fills 0xFFFFFFFF ⟨0xFF, 0, 0⟩ := by decide
theorem test_decode_filll : decode 0x060000000100FF00 = .filll 1 ⟨0, 0xFF, 0⟩ := by decide
theorem test_decode_flush_ignores_fields : decode 0x07000000FF123456 = .flush := by decide
theorem test_decode_zero_word : decode 0x0000000000000000 = .illegal 0 := by decide
theorem test_decode_first_op_past_the_map : decode 0x0800000000000000 = .illegal 8 := by decide
theorem test_decode_last_op : decode 0xFF00000040FFFFFF = .illegal 0xFF := by decide
theorem test_encode_set : encode (.set 5 ⟨0xFF, 0x80, 0⟩) = some 0x0300000005FF8000 := by decide
theorem test_decodeTableWord : decodeTableWord 64 0x060000000100FF00 = some (.filll 1 ⟨0, 0xFF, 0⟩) := by decide

/-! ### Assembler (R83 to R85; the lines and words of spec/95, P1 to P3) -/

theorem test_assemble_set : assembleLine "SET 64, #FFFFFF".toList = some [0x0300000040FFFFFF] := by decide
theorem test_assemble_case_comment_hex :
    assembleLine "  filll 0x1, #00ff00 ; a layer".toList = some [0x060000000100FF00] := by decide
theorem test_assemble_setxyz : assembleLine "SETXYZ 3, 3, 3, #FF0000".toList = some [0x030000003FFF0000] := by decide
theorem test_assemble_setxyz_rejects : assembleLine "SETXYZ 4, 0, 0, #FF0000".toList = none := by decide
theorem test_assemble_word64 : assembleLine ".word64 0x09000000FFFFFFFF".toList = some [0x09000000FFFFFFFF] := by decide
theorem test_assemble_rejects_wide_arg : assembleLine "FILLP 4294967296, #FF0000".toList = none := by decide
theorem test_assemble_program :
    assemble ["CLEAR".toList, "; nothing".toList, "FLUSH".toList] = some [0x0200000000000000, 0x0700000000000000] := by decide

/-! ### The voxel address decoder (spec/95, L2) -/

theorem test_voxelIndex : voxelIndex 2 3 1 = 30 ∧ voxelIndex 1 2 3 = 57 := by decide
theorem test_panel_members : (List.range 64).filter (panel 3) = (List.range 16).map (fun k => 3 + 4 * k) := by decide
theorem test_slice_members :
    (List.range 64).filter (slice 1) = [4, 5, 6, 7, 20, 21, 22, 23, 36, 37, 38, 39, 52, 53, 54, 55] := by decide
theorem test_layer_members : (List.range 64).filter (layer 3) = (List.range 16).map (48 + ·) := by decide

/-! ### Colour wheel and fade (spec/95, L2) -/

theorem test_wheel :
    [0, 1, 42, 84, 85, 86, 127, 169, 170, 171, 212, 254, 255].map (fun p => packColor (wheelColor p)) =
      [0x00FF00, 0x03FC00, 0x7E8100, 0xFC0300, 0xFF0000, 0xFC0003, 0x81007E, 0x0300FC, 0x0000FF, 0x0003FC, 0x007E81,
        0x00FC03, 0x00FF00] := by decide

/-- One row of the fade table: the channels 200, 100, 50, 255, 3, 1, 0. -/
def fadeRow (f : Word32) : List Byte := [200, 100, 50, 255, 3, 1, 0].map fun v => fadeChannel v f

theorem test_fade_half_and_one :
    fadeRow 0x3F000000 = [100, 50, 25, 127, 1, 0, 0] ∧ fadeRow 0x3F800000 = [200, 100, 50, 255, 3, 1, 0] := by decide
theorem test_fade_just_below_one_and_tenth :
    fadeRow 0x3F7FFFFF = [199, 99, 49, 254, 2, 0, 0] ∧ fadeRow 0x3DCCCCCD = [20, 10, 5, 25, 0, 0, 0] := by decide
theorem test_fade_two_and_infinity :
    fadeRow 0x40000000 = [255, 200, 100, 255, 6, 2, 0] ∧ fadeRow 0x7F800000 = [255, 255, 255, 255, 255, 255, 0] := by decide
theorem test_fade_zeroes :
    [0x00000000, 0x80000000, 0xBF800000, 0xFF800000, 0x7FC00000, 0x00000001].all
      (fun f => fadeRow f == [0, 0, 0, 0, 0, 0, 0]) = true := by decide
theorem test_fade_rounds_before_truncating : fadeChannel 3 0x3FD55555 = 5 := by decide
theorem test_fade_colours :
    fadeColor ⟨0xC8, 0x64, 0x32⟩ 0x3F000000 = ⟨0x64, 0x32, 0x19⟩ ∧
      fadeColor ⟨0xFF, 0x80, 0x01⟩ 0x40000000 = ⟨0xFF, 0xFF, 0x02⟩ := by decide

/-! ### Encoder (spec/95, L2) -/

theorem test_encode_bytes :
    encodeColor .bytePerBit ⟨0xA5, 0x3C, 0x01⟩ =
      [0xFC, 0xC0, 0xFC, 0xC0, 0xC0, 0xFC, 0xC0, 0xFC, 0xC0, 0xC0, 0xFC, 0xFC, 0xFC, 0xFC, 0xC0, 0xC0,
        0xC0, 0xC0, 0xC0, 0xC0, 0xC0, 0xC0, 0xC0, 0xFC] := by decide
theorem test_encode_nibbles :
    encodeColor .nibblePerBit ⟨0x12, 0x34, 0x56⟩ =
      [0x88, 0x8E, 0x88, 0xE8, 0x88, 0xEE, 0x8E, 0x88, 0x8E, 0x8E, 0x8E, 0xE8] := by decide
theorem test_encode_bus : encodeBus .nibblePerBit ⟨0xA5, 0x3C, 0x01⟩ = 0x8E88888888EEEE888E8EE8E8 := by decide
theorem test_recover : recoverColor .nibblePerBit (encodeColor .nibblePerBit ⟨0xC8, 0x64, 0x32⟩) = some ⟨0xC8, 0x64, 0x32⟩ := by
  decide

/-! ### STATUS (spec/95, L2) -/

theorem test_statusWord :
    statusWord ⟨false, 0⟩ = 0x00 ∧ statusWord ⟨false, 1⟩ = 0x02 ∧ statusWord ⟨false, 2⟩ = 0x04 ∧ statusWord ⟨true, 1⟩ = 0x03 := by
  decide

/-! ### Commands -/

/-- What a meaning leaves, or the state before it where it stops. -/
def after (r : Result) : State :=
  match r with
  | .next s => s
  | _ => State.reset

/-- Every voxel written black, idle, ERR = 0: the start state of spec/95's command rows. -/
def blackCube : State := after (exec (.init ⟨0, 0, 0⟩) State.reset)

/-- The indices that hold a colour. -/
def holding (c : Color) (s : State) : List Nat := (List.range 64).filter fun i => voxelAt s.fb i == c

theorem test_init_writes_all :
    (after (exec (.init ⟨0x12, 0x34, 0x56⟩) State.reset)).fb = Vector.replicate 64 ⟨0x12, 0x34, 0x56⟩ := by decide
theorem test_init_defines_all : (after (exec (.init ⟨0, 0, 0⟩) State.reset)).defined = Vector.replicate 64 true := by decide
theorem test_fill_writes_all : (holding ⟨0xFF, 0xFF, 0xFF⟩ (after (exec (.fill ⟨0xFF, 0xFF, 0xFF⟩) blackCube))).length = 64 := by
  decide
theorem test_set_63 : holding ⟨0, 0, 0xFF⟩ (after (exec (.set 63 ⟨0, 0, 0xFF⟩) blackCube)) = [63] := by decide
theorem test_set_64_fails :
    after (exec (.set 64 ⟨0xFF, 0xFF, 0xFF⟩) blackCube) = { blackCube with status := ⟨false, 1⟩ } := by decide
theorem test_fillp : holding ⟨0, 0, 0xFF⟩ (after (exec (.fillp 2 ⟨0, 0, 0xFF⟩) blackCube)) =
    [2, 6, 10, 14, 18, 22, 26, 30, 34, 38, 42, 46, 50, 54, 58, 62] := by decide
theorem test_fillp_4_fails : after (exec (.fillp 4 ⟨0xFF, 0, 0⟩) blackCube) = { blackCube with status := ⟨false, 1⟩ } := by decide
theorem test_fills : holding ⟨0, 0xFF, 0⟩ (after (exec (.fills 3 ⟨0, 0xFF, 0⟩) blackCube)) =
    [12, 13, 14, 15, 28, 29, 30, 31, 44, 45, 46, 47, 60, 61, 62, 63] := by decide
theorem test_filll : holding ⟨0, 0xFF, 0⟩ (after (exec (.filll 1 ⟨0, 0xFF, 0⟩) blackCube)) =
    [16, 17, 18, 19, 20, 21, 22, 23, 24, 25, 26, 27, 28, 29, 30, 31] := by decide
theorem test_illegal : after (exec (.illegal 0xFF) blackCube) = { blackCube with status := ⟨false, 2⟩ } := by decide

/-! ### FLUSH (spec/95, the handshake sketch and P4), for a build with the identity as its gamma table -/

/-- All white, and FLUSH accepted. -/
def whiteFlush (e : Enc) : State := after (acceptFlush e id (after (exec (.fill ⟨0xFF, 0xFF, 0xFF⟩) State.reset)))

theorem test_flush_offers_first_byte :
    (whiteFlush .bytePerBit).txValid = true ∧ (whiteFlush .bytePerBit).txData = 0xFC ∧
      statusWord (whiteFlush .bytePerBit).status = 0x01 := by decide
theorem test_flush_unwritten_faults : exec .flush (after (exec (.set 5 ⟨0xFF, 0xFF, 0xFF⟩) State.reset)) =
    .fault .uninitialisedVoxel := by rfl
theorem test_stall_keeps_the_byte :
    transmitterCycle .bytePerBit id { whiteFlush .bytePerBit with txReady := [false] } = whiteFlush .bytePerBit := by decide
/-- The last byte of voxel 0 in the nibble encoding: SER_BYTE goes back to 0 and SER_VOX on to 1. -/
theorem test_transfer_wraps_at_the_voxel :
    let s := transmitterCycle .nibblePerBit id { whiteFlush .nibblePerBit with serByte := 11, txReady := [true] }
    s.serVox = 1 ∧ s.serByte = 0 ∧ s.txData = 0xEE ∧ s.transferred = [0xEE] := by decide
theorem test_last_transfer_completes :
    let s := transmitterCycle .bytePerBit id { whiteFlush .bytePerBit with serVox := 63, serByte := 23, txReady := [true] }
    s.txValid = false ∧ s.status = ⟨false, 0⟩ ∧ s.serVox = 0 ∧ s.serByte = 0 := by decide
theorem test_frame_blue_last :
    (List.range 10).map (fun k => frameByte .bytePerBit id (after (exec (.set 63 ⟨0, 0, 0xFF⟩) blackCube)).fb (1526 + k)) =
      [0xC0, 0xC0, 0xFC, 0xFC, 0xFC, 0xFC, 0xFC, 0xFC, 0xFC, 0xFC] := by decide

/-! ### Step -/

theorem test_step_accepts_an_offer :
    (after (step { State.reset with host := [.offer 0x030000003F0000FF, .wait] })).host = [.wait] ∧
      holding ⟨0, 0, 0xFF⟩ (after (step { State.reset with host := [.offer 0x030000003F0000FF, .wait] })) = [63] := by decide
theorem test_step_holds_an_offer_while_busy :
    step { State.reset with status := ⟨true, 0⟩, host := [.offer 0x0100000000000000] } =
      .next { State.reset with status := ⟨true, 0⟩, host := [.offer 0x0100000000000000] } := by rfl
theorem test_step_reset_in_mid_frame :
    let s := after (step { whiteFlush .bytePerBit with serVox := 29, serByte := 4, host := [.rst] })
    s.status = ⟨false, 0⟩ ∧ s.serVox = 0 ∧ s.serByte = 0 ∧ s.txValid = false ∧ s.defined = Vector.replicate 64 false := by decide
theorem test_withFetchWord_runs_first :
    holding ⟨0xFF, 0xFF, 0xFF⟩ (after (step (State.reset.withFetchWord 64 0x0200000000FFFFFF))) = List.range 64 := by decide
theorem test_step_drives_a_port :
    wheelOut (after (step { State.reset with host := [.drive (.wheel 42)] })) = 0x7E8100 := by decide

/-! ### Witnesses: a concrete input that meets all of a statement's hypotheses, with boundary values of each clause -/

/-- The state in mid-frame in which voxel v's byte b is offered and the bytes before it have been transferred. -/
def midFrame (v : BitVec 6) (b : BitVec 5) (s : State) : State :=
  let position := v.toNat * bytesPerColor Config.enc + b.toNat
  { s with
    status := ⟨true, s.status.err⟩
    serVox := v
    serByte := b
    txValid := true
    txData := frameByte Config.enc Config.gamma s.fb position
    transferred := (frame Config.enc Config.gamma s.fb).take position }

/-- Every voxel white, idle, with these moves of the host and answers of the transmitter to come. -/
def whiteCube (host : List HostMove) (answers : List Bool) : State :=
  { after (exec (.fill ⟨0xFF, 0xFF, 0xFF⟩) State.reset) with host := host, txReady := answers }

theorem whiteCube_defined (host : List HostMove) (answers : List Bool) :
    ∀ i : Fin 64, (whiteCube host answers).defined[i] = true := by
  show ∀ i : Fin 64, (Vector.replicate 64 true)[i] = true
  decide

theorem whiteCube_inv (host : List HostMove) (answers : List Bool) : Inv (whiteCube host answers) :=
  ⟨by show (0 : BitVec 2) ≠ 3; decide, fun _ => ⟨rfl, rfl, rfl⟩, fun h => absurd h (by show ¬ false = true; decide)⟩

theorem midFrame_inv (v : BitVec 6) (b : BitVec 5) (s : State) (hb : b.toNat < bytesPerColor Config.enc)
    (he : s.status.err ≠ 3) (hd : ∀ i : Fin 64, s.defined[i] = true) : Inv (midFrame v b s) :=
  ⟨he, fun h => absurd h (by show ¬ true = false; decide), fun _ => ⟨rfl, hb, rfl, hd, List.suffix_refl _⟩⟩

/-- The last byte of a voxel, NB − 1. -/
def lastByteOfVoxel : BitVec 5 := BitVec.ofNat 5 (bytesPerColor Config.enc - 1)

theorem lastByteOfVoxel_toNat : lastByteOfVoxel.toNat + 1 = bytesPerColor Config.enc := by
  unfold lastByteOfVoxel
  generalize Config.enc = e
  cases e <;> decide

theorem bytesPerColor_pos : 0 < bytesPerColor Config.enc := by
  generalize Config.enc = e
  cases e <;> decide

/-- A white frame in progress at its first byte. -/
def firstByte (host : List HostMove) (answers : List Bool) : State := midFrame 0 0 (whiteCube host answers)

/-- A white frame in progress at its last byte, 64·NB − 1. -/
def lastByte (host : List HostMove) (answers : List Bool) : State :=
  midFrame 63 lastByteOfVoxel (whiteCube host answers)

theorem firstByte_inv (host : List HostMove) (answers : List Bool) : Inv (firstByte host answers) :=
  midFrame_inv _ _ _ bytesPerColor_pos (by show (0 : BitVec 2) ≠ 3; decide) (whiteCube_defined _ _)

theorem lastByte_inv (host : List HostMove) (answers : List Bool) : Inv (lastByte host answers) :=
  midFrame_inv _ _ _ (by have := lastByteOfVoxel_toNat; omega) (by show (0 : BitVec 2) ≠ 3; decide) (whiteCube_defined _ _)

theorem lastByte_position (host : List HostMove) (answers : List Bool) :
    bytePosition Config.enc (lastByte host answers) + 1 = frameLength Config.enc := by
  show 63 * bytesPerColor Config.enc + lastByteOfVoxel.toNat + 1 = 64 * bytesPerColor Config.enc
  have := lastByteOfVoxel_toNat
  omega

/-- Reset in an idle block, and in a frame's last byte. -/
theorem witness_ResetCycleFromAnyState :
    (whiteCube [.rst] []).host = .rst :: [] ∧
      (lastByte [.rst, .offer 0x0700000000000000] [true]).host = .rst :: [.offer 0x0700000000000000] := by decide

theorem witness_ResetEndsAFrameWithAPrefix :
    (Inv (firstByte [.rst] [true]) ∧ (firstByte [.rst] [true]).status.busy = true ∧ (firstByte [.rst] [true]).host = [.rst]) ∧
      Inv (lastByte [.rst] []) ∧ (lastByte [.rst] []).status.busy = true ∧ (lastByte [.rst] []).host = [.rst] :=
  ⟨⟨firstByte_inv _ _, rfl, rfl⟩, lastByte_inv _ _, rfl, rfl⟩

/-- Each clause at the ends of its range of OP. -/
theorem witness_DecodeFollowsTheOpcodeMap :
    opOf 0x01FFFFFFFF000000 = 1 ∧ opOf 0x0200000000FFFFFF = 2 ∧ opOf 0x0300000000000000 = 3 ∧ opOf 0x04FFFFFFFFFFFFFF = 4 ∧
      opOf 0x0500000003000000 = 5 ∧ opOf 0x0600000004000000 = 6 ∧ opOf 0x07FFFFFFFFFFFFFF = 7 ∧ opOf 0x00FFFFFFFFFFFFFF = 0 ∧
      8 ≤ opOf 0x0800000000000000 ∧ 8 ≤ opOf 0xFFFFFFFFFFFFFFFF := by decide

theorem witness_DecodeOfEncodeIsTheInstruction :
    (Instr.init ⟨0xFF, 0, 0xFF⟩).wellFormed = true ∧ encode (.init ⟨0xFF, 0, 0xFF⟩) = some 0x0100000000FF00FF ∧
      (Instr.filll 0xFFFFFFFF ⟨0, 0xFF, 0⟩).wellFormed = true ∧
      encode (.filll 0xFFFFFFFF ⟨0, 0xFF, 0⟩) = some 0x06FFFFFFFF00FF00 ∧ Instr.flush.wellFormed = true ∧
      encode .flush = some 0x0700000000000000 ∧ (Instr.illegal 8).wellFormed = true ∧
      encode (.illegal 8) = some 0x0800000000000000 := by decide

theorem witness_IgnoredFieldsChangeNothing :
    (opOf 0x01FFFFFFFF123456 = opOf 0x0100000000123456 ∧ opOf 0x0100000000123456 = 1 ∧
      colOf 0x01FFFFFFFF123456 = colOf 0x0100000000123456) ∧
    (opOf 0x0200000001000000 = opOf 0x02FFFFFFFF000000 ∧ opOf 0x02FFFFFFFF000000 = 2 ∧
      colOf 0x0200000001000000 = colOf 0x02FFFFFFFF000000) ∧
    (opOf 0x07000000FF123456 = opOf 0x0700000000000000 ∧ opOf 0x0700000000000000 = 7) ∧
    encode (.init ⟨1, 2, 3⟩) = some 0x0100000000010203 ∧ encode .flush = some 0x0700000000000000 := by decide

theorem witness_StepRunsTheHostsMove :
    ((whiteCube [.offer 0x0100000000000000] []).host = [.offer 0x0100000000000000] ∧
      (whiteCube [.offer 0x0100000000000000] []).status.busy = false) ∧
    ((firstByte [.offer 0x0100000000000000] []).host = [.offer 0x0100000000000000] ∧
      (firstByte [.offer 0x0100000000000000] []).status.busy = true) ∧
    (firstByte [.drive (.gamma 255)] []).host = [.drive (.gamma 255)] ∧ (whiteCube [.wait] []).host = [.wait] ∧
    (whiteCube [] []).host = [] ∧ (whiteCube [.rst] []).host = [.rst] := by decide

theorem witness_CommandHandshake :
    ((whiteCube [.offer 0x0700000000000000] []).host = [.offer 0x0700000000000000] ∧
      cmdReadyOut (whiteCube [.offer 0x0700000000000000] []) = true) ∧
    (lastByte [.offer 0x0700000000000000] [true]).host = [.offer 0x0700000000000000] ∧
      cmdReadyOut (lastByte [.offer 0x0700000000000000] [true]) = false := by decide

theorem witness_SetWritesOneVoxelOrFails :
    (0 : Word32).toNat < 64 ∧ (63 : Word32).toNat < 64 ∧ 64 ≤ (64 : Word32).toNat ∧ 64 ≤ (0xFFFFFFFF : Word32).toNat ∧
      opOf 0x03FFFFFFFFFFFFFF = 3 := by decide

/-- FILLP, FILLS and FILLL have the same range. -/
theorem witness_axis_fills :
    (0 : Word32).toNat < 4 ∧ (3 : Word32).toNat < 4 ∧ 4 ≤ (4 : Word32).toNat ∧ 4 ≤ (0xFFFFFFFF : Word32).toNat ∧
      opOf 0x0400000003FF0000 = 4 ∧ opOf 0x0500000004FF0000 = 5 ∧ opOf 0x06FFFFFFFFFF0000 = 6 := by decide

theorem witness_IllegalOpWritesOnlyErr :
    (whiteCube [.offer 0] []).host = [.offer 0] ∧ (whiteCube [.offer 0] []).status.busy = false ∧ opOf 0 = 0 ∧
      8 ≤ opOf 0x0800000000000000 ∧ 8 ≤ opOf 0xFFFFFFFFFFFFFFFF := by decide

theorem step_whiteCube_flush :
    step (whiteCube [.offer 0x0700000000000000] []) = .next (startFrame Config.enc Config.gamma (whiteCube [] [])) := by
  have h : allDefined (whiteCube [] []) = true := by decide
  show acceptFlush Config.enc Config.gamma (whiteCube [] []) = _
  unfold acceptFlush
  rw [if_pos h]

/-- The acceptance of a FLUSH that is no model fault. -/
theorem witness_AcceptedCommandEndsWithItsCode_flush :
    Accepts (whiteCube [.offer 0x0700000000000000] []) 0x0700000000000000 ∧ opOf 0x0700000000000000 = 7 ∧
      ∃ t, step (whiteCube [.offer 0x0700000000000000] []) = .next t :=
  ⟨⟨⟨[], rfl⟩, rfl⟩, by decide, _, step_whiteCube_flush⟩

/-- One word for each code. -/
theorem witness_AcceptedCommandEndsWithItsCode :
    (Accepts (whiteCube [.offer 0x030000003F0000FF] []) 0x030000003F0000FF ∧ opOf 0x030000003F0000FF ≠ 7 ∧
      codeOf 0x030000003F0000FF = 0) ∧
    (opOf 0x0300000040FFFFFF ≠ 7 ∧ codeOf 0x0300000040FFFFFF = 1) ∧ (opOf 0x0400000003FF0000 ≠ 7 ∧ codeOf 0x0400000003FF0000 = 0) ∧
    (opOf 0x0600000004FF0000 ≠ 7 ∧ codeOf 0x0600000004FF0000 = 1) ∧ opOf 0x0800000000000000 ≠ 7 ∧ codeOf 0x0800000000000000 = 2 :=
  ⟨⟨⟨⟨[], rfl⟩, rfl⟩, by decide, by decide⟩, by decide⟩

theorem witness_FailedCommandLeavesTheBlockReady :
    (whiteCube [.offer 0x0500000004000000, .offer 0x0700000000000000] []).host =
      .offer 0x0500000004000000 :: [.offer 0x0700000000000000] ∧
      (whiteCube [.offer 0x0500000004000000, .offer 0x0700000000000000] []).status.busy = false ∧
      opOf 0x0500000004000000 ≠ 7 ∧ codeOf 0x0500000004000000 ≠ 0 ∧ codeOf 0xFF00000000000000 ≠ 0 := by decide

theorem witness_RepeatedCommandChangesNothingMore :
    (Instr.set 63 ⟨0, 0, 0xFF⟩).isCommand = true ∧ Instr.set 63 ⟨0, 0, 0xFF⟩ ≠ .flush ∧
      exec (.set 63 ⟨0, 0, 0xFF⟩) blackCube = .next (after (exec (.set 63 ⟨0, 0, 0xFF⟩) blackCube)) :=
  ⟨rfl, by decide, rfl⟩

theorem witness_FourPanelsSlicesOrLayersInAnyOrder : [2, 0, 3, 1].Perm [0, 1, 2, 3] := by decide

/-- The largest axis values and the largest index. -/
theorem witness_VoxelDecoderIsABijection : 3 < 4 ∧ 63 < 64 ∧ voxelIndex 3 3 3 = 63 := by decide

theorem witness_PseudoInstructionsExpand :
    expandPseudo (.setxyz 3 3 3 ⟨0xFF, 0, 0⟩) = some (.set 63 ⟨0xFF, 0, 0⟩) ∧
      expandPseudo (.setxyz 3 3 4 ⟨0xFF, 0, 0⟩) = none := by decide

/-- SET 5 on a block with no voxel written. -/
theorem witness_OnlyMutatorsWriteVoxels :
    let s := { State.reset with host := [.offer 0x0300000005FF8000] }
    step s = .next (after (step s)) ∧ rstIn s = false ∧ (after (step s)).fb[5] ≠ s.fb[5] ∧
      (after (step s)).defined[5] ≠ s.defined[5] := ⟨rfl, rfl, by decide, by decide⟩

theorem witness_OnlyMutatorsWriteVoxels_kept :
    step (whiteCube [] []) = .next (whiteCube [] []) ∧ rstIn (whiteCube [] []) = false ∧
      (whiteCube [] []).defined[63] = true := ⟨rfl, rfl, by decide⟩

theorem witness_FrameBufferHoldsDuringFlush :
    (firstByte [.drive (.wheel 255)] [true]).status.busy = true ∧ rstIn (firstByte [.drive (.wheel 255)] [true]) = false ∧
      (lastByte [.offer 0x0200000000000000] [true]).status.busy = true ∧
      rstIn (lastByte [.offer 0x0200000000000000] [true]) = false := by decide

/-- No acceptance and no completion: an idle cycle. -/
theorem witness_ErrKeepsTheLastCompletedCode_idle :
    Inv (whiteCube [] []) ∧ step (whiteCube [] []) = .next (whiteCube [] []) ∧ rstIn (whiteCube [] []) = false ∧
      (∀ w, ¬ Accepts (whiteCube [] []) w) ∧
      ((whiteCube [] []).status.busy = true → (whiteCube [] []).status.busy = true) := by
  refine ⟨whiteCube_inv _ _, rfl, rfl, ?_, id⟩
  rintro w ⟨⟨rest, h⟩, -⟩
  cases h

/-- The acceptance of a FLUSH. -/
theorem witness_ErrKeepsTheLastCompletedCode_accepted :
    Inv (whiteCube [.offer 0x0700000000000000] []) ∧
      (∃ t, step (whiteCube [.offer 0x0700000000000000] []) = .next t) ∧ rstIn (whiteCube [.offer 0x0700000000000000] []) = false ∧
      Accepts (whiteCube [.offer 0x0700000000000000] []) 0x0700000000000000 ∧ opOf 0x0700000000000000 = 7 :=
  ⟨whiteCube_inv _ _, ⟨_, step_whiteCube_flush⟩, rfl, ⟨⟨[], rfl⟩, rfl⟩, by decide⟩

theorem transmitterCycle_lastByte (host : List HostMove) (answers : List Bool) :
    (transmitterCycle Config.enc Config.gamma (lastByte host (true :: answers))).status = ⟨false, 0⟩ := by
  show (transferByte Config.enc Config.gamma (lastByte host answers)).status = ⟨false, 0⟩
  unfold transferByte
  rw [if_pos (lastByte_position host answers)]
  rfl

/-- The completion of a FLUSH. -/
theorem witness_ErrKeepsTheLastCompletedCode_completed :
    Inv (lastByte [] [true]) ∧ (lastByte [] [true]).status.busy = true ∧ rstIn (lastByte [] [true]) = false ∧
      ∃ t, step (lastByte [] [true]) = .next t ∧ t.status.busy = false :=
  ⟨lastByte_inv _ _, rfl, rfl, _, rfl, by rw [streamCycle, transmitterCycle_lastByte]⟩

theorem witness_IdleBlockKeepsItsState :
    Inv (whiteCube [.wait, .wait] []) ∧ (whiteCube [.wait, .wait] []).status.busy = false ∧
      (whiteCube [.wait, .wait] []).host = List.replicate 2 .wait := ⟨whiteCube_inv _ _, rfl, rfl⟩

/-- One voxel of 64 not written. -/
theorem witness_OnlyAnUnwrittenFlushFaults :
    let s := { whiteCube [.offer 0x07FFFFFFFFFFFFFF] [] with defined := (Vector.replicate 64 true).set 63 false }
    (Accepts s 0x07FFFFFFFFFFFFFF ∧ opOf 0x07FFFFFFFFFFFFFF = 7 ∧ s.defined[63] = false) ∧ step s = .fault .uninitialisedVoxel :=
  ⟨⟨⟨⟨[], rfl⟩, rfl⟩, by decide, by decide⟩, rfl⟩

/-- The identity is an admissible table. -/
theorem witness_GammaFormIsExactlyTheAdmissibleTables :
    GammaTable.Admissible id ∧ (0 : Byte) ≤ 255 := by
  refine ⟨⟨rfl, rfl, fun i hi => ?_⟩, by decide⟩
  simp only [id, BitVec.toNat_ofNat]
  omega

theorem witness_GammaPortLooksUpTheTable : (255 : Byte) ≤ 255 ∧ (0 : Byte) ≤ 0 ∧ (0 : Byte) ≤ 128 := by decide

/-- The values on both sides of each range's end. -/
theorem witness_WheelPortFollowsTheThreeRamps :
    (84 : Byte).toNat < 85 ∧ 85 ≤ (85 : Byte).toNat ∧ (85 : Byte).toNat < 170 ∧ (169 : Byte).toNat < 170 ∧
      170 ≤ (170 : Byte).toNat ∧ 170 ≤ (255 : Byte).toNat := by decide

theorem witness_FadePortScalesEachChannel : (0xC86432 : Word24) = 0xC86432 ∧ (0x3F000000 : Word32) = 0x3F000000 := ⟨rfl, rfl⟩

/-- The largest finite factor, the negative one, infinity and a NaN. -/
theorem witness_FadeChannelIsTheExactFormulation :
    (0x7F7FFFFF : Word32).toNat / 2 ^ 23 % 256 < 255 ∧ (0xFF7FFFFF : Word32).toNat / 2 ^ 23 % 256 < 255 ∧
      (0x7F800000 : Word32).toNat / 2 ^ 23 % 256 = 255 ∧ (0xFFFFFFFF : Word32).toNat / 2 ^ 23 % 256 = 255 := by decide

theorem witness_FadeCornerCases :
    (0x80000000 : Word32).toNat % 2 ^ 31 = 0 ∧ (0xFF800000 : Word32).toNat / 2 ^ 31 = 1 ∧
      ((0x7F800001 : Word32).toNat / 2 ^ 23 % 256 = 255 ∧ (0x7F800001 : Word32).toNat % 2 ^ 23 ≠ 0) ∧
      (0x007FFFFF : Word32).toNat / 2 ^ 23 % 256 = 0 := by decide

/-- The last byte of either encoding. -/
theorem witness_EncodePortPacksTheSequence : 0 < bytesPerColor Config.enc ∧ lastByteOfVoxel.toNat < bytesPerColor Config.enc :=
  ⟨bytesPerColor_pos, by have := lastByteOfVoxel_toNat; omega⟩

theorem witness_PortOutputsFollowTheirOwnInputs :
    (firstByte [] []).pins.gammaIn = State.reset.pins.gammaIn ∧ (firstByte [] []).pins.wheelPos = State.reset.pins.wheelPos ∧
      (firstByte [] []).pins.fadeRgb = State.reset.pins.fadeRgb ∧ (firstByte [] []).pins.fadeFactor = State.reset.pins.fadeFactor ∧
      (firstByte [] []).pins.encRgb = State.reset.pins.encRgb ∧ (firstByte [] []).status ≠ State.reset.status := by decide

theorem witness_PortUseDisturbsNothing :
    (lastByte [.drive (.encode 0xFFFFFF)] [true]).host = .drive (.encode 0xFFFFFF) :: [] := rfl

theorem witness_EncoderBytesBitByBit : 0 < 24 ∧ 23 < 24 ∧ 0 < 12 ∧ 11 < 12 := by decide

theorem witness_EncodedColourIsRecovered :
    encodeColor .nibblePerBit ⟨0x80, 0, 1⟩ = encodeColor .nibblePerBit ⟨0x80, 0, 1⟩ := rfl

theorem witness_FlushIsAcceptedOrFaults :
    (∀ i : Fin 64, (whiteCube [] []).defined[i] = true) ∧ ∃ i : Fin 64, State.reset.defined[i] = false :=
  ⟨whiteCube_defined _ _, 63, by decide⟩

theorem witness_FrameByteSequence : 63 < 64 ∧ 0 < bytesPerColor .bytePerBit ∧ 11 < bytesPerColor .nibblePerBit := by decide

/-- At the first byte of a voxel, and at its last, where SER_VOX goes on. -/
theorem witness_TransferOffersTheNextByte :
    (let s := firstByte [] [true];
      s.host = [] ∧ s.txValid = true ∧ s.txReady = true :: [] ∧ s.serByte.toNat < bytesPerColor Config.enc ∧
        bytePosition Config.enc s + 1 < frameLength Config.enc) ∧
    (let s := midFrame 62 lastByteOfVoxel (whiteCube [] [true]);
      s.host = [] ∧ s.txValid = true ∧ s.txReady = true :: [] ∧ s.serByte.toNat < bytesPerColor Config.enc ∧
        bytePosition Config.enc s + 1 < frameLength Config.enc ∧ s.serByte.toNat + 1 = bytesPerColor Config.enc) := by
  have h := lastByteOfVoxel_toNat
  have hp := bytesPerColor_pos
  refine ⟨⟨rfl, rfl, rfl, hp, ?_⟩, rfl, rfl, rfl, ?_, ?_, h⟩
  · show 0 * bytesPerColor Config.enc + 0 + 1 < 64 * bytesPerColor Config.enc
    omega
  · show lastByteOfVoxel.toNat < bytesPerColor Config.enc
    omega
  · show 62 * bytesPerColor Config.enc + lastByteOfVoxel.toNat + 1 < 64 * bytesPerColor Config.enc
    omega

theorem witness_LastTransferCompletesFlush :
    (lastByte [] [true, false]).host = [] ∧ (lastByte [] [true, false]).txValid = true ∧
      (lastByte [] [true, false]).txReady = true :: [false] ∧
      bytePosition Config.enc (lastByte [] [true, false]) + 1 = frameLength Config.enc :=
  ⟨rfl, rfl, rfl, lastByte_position _ _⟩

theorem witness_StalledFlushWaitsForEver :
    (Inv (lastByte [.offer 0x0100000000000000] [false, false, false]) ∧
      (lastByte [.offer 0x0100000000000000] [false, false, false]).status.busy = true ∧
      (lastByte [.offer 0x0100000000000000] [false, false, false]).txReady = List.replicate 3 false ∧
      (lastByte [.offer 0x0100000000000000] [false, false, false]).host = [.offer 0x0100000000000000]) ∧
    Inv (firstByte [] []) ∧ (firstByte [] []).status.busy = true ∧ (firstByte [] []).txReady = List.replicate 0 false ∧
      (firstByte [] []).host = [] :=
  ⟨⟨lastByte_inv _ _, rfl, rfl, rfl⟩, firstByte_inv _ _, rfl, rfl, rfl⟩

/-- A transmitter that pauses once before every byte it accepts but the last, and a host that offers INIT meanwhile. -/
theorem witness_FlushTransfersExactlyTheFrame :
    let answers := (List.replicate (frameLength Config.enc - 1) [false, true]).flatten
    let s := whiteCube [.offer 0x0700000000000000, .offer 0x0100000000000000] (answers ++ true :: [false])
    Inv s ∧ s.host = .offer 0x0700000000000000 :: [.offer 0x0100000000000000] ∧ s.status.busy = false ∧
      opOf 0x0700000000000000 = 7 ∧ (∀ i : Fin 64, s.defined[i] = true) ∧
      ([HostMove.offer 0x0100000000000000] = [] ∨ ∃ v rest, [HostMove.offer 0x0100000000000000] = .offer v :: rest) ∧
      s.txReady = answers ++ true :: [false] ∧ answers.count true + 1 = frameLength Config.enc := by
  refine ⟨whiteCube_inv _ _, rfl, rfl, by decide, whiteCube_defined _ _, .inr ⟨_, _, rfl⟩, rfl, ?_⟩
  have h : ∀ n : Nat, (List.replicate n [false, true]).flatten.count true = n := by
    intro n
    induction n with
    | zero => rfl
    | succ n ih => simp [List.replicate_succ, ih]
  rw [h]
  have := bytesPerColor_pos
  unfold frameLength
  omega

/-- A step in mid-frame that transfers a byte, and one that completes the frame. -/
theorem witness_EveryStepKeepsTheInvariant :
    (Inv (firstByte [] [true]) ∧ ∃ t, step (firstByte [] [true]) = .next t) ∧
      Inv (lastByte [.wait] [true]) ∧ ∃ t, step (lastByte [.wait] [true]) = .next t :=
  ⟨⟨firstByte_inv _ _, _, rfl⟩, lastByte_inv _ _, _, rfl⟩

theorem witness_InitThenFlushOffersTheBackground :
    let s := { State.reset with host := [.offer 0x0100000000123456, .offer 0x0700000000000000] }
    s.status.busy = false ∧ s.host = .offer 0x0100000000123456 :: .offer 0x0700000000000000 :: [] ∧
      opOf 0x0100000000123456 = 1 ∧ opOf 0x02FFFFFFFF123456 = 2 ∧ opOf 0x0700000000000000 = 7 := by decide

/-- A FLUSH offered, a frame's last byte with a port driven, and no move at all. -/
theorem witness_FullyWrittenBlockGoesOn :
    ((∀ i : Fin 64, (whiteCube [.offer 0x0700000000000000] []).defined[i] = true) ∧
      rstIn (whiteCube [.offer 0x0700000000000000] []) = false) ∧
    ((∀ i : Fin 64, (lastByte [.drive (.gamma 255), .rst] [true]).defined[i] = true) ∧
      rstIn (lastByte [.drive (.gamma 255), .rst] [true]) = false) ∧
    (∀ i : Fin 64, (whiteCube [] []).defined[i] = true) ∧ rstIn (whiteCube [] []) = false :=
  ⟨⟨whiteCube_defined _ _, rfl⟩, ⟨whiteCube_defined [.drive (.gamma 255), .rst] [true], rfl⟩, whiteCube_defined _ _, rfl⟩

theorem witness_RunThatBeginsWithInitNeverStops :
    let s := { State.reset with host := [.offer 0x0200000000000000, .drive (.wheel 0), .offer 0x0700000000000000] }
    s.status.busy = false ∧ s.host = .offer 0x0200000000000000 :: [.drive (.wheel 0), .offer 0x0700000000000000] ∧
      opOf 0x0200000000000000 = 2 ∧ ∀ m ∈ [HostMove.drive (.wheel 0), .offer 0x0700000000000000], m ≠ .rst := by decide

theorem witness_FlushRightAfterResetFaults :
    (whiteCube [.rst, .offer 0x0700000000000000] []).host = .rst :: .offer 0x0700000000000000 :: [] ∧
      opOf 0x0700000000000000 = 7 := by decide

end Sys2Proof.Tests
end

section
/-!
PROOF. The family of the state (spec/10_state.md): what a step can do, said once, the invariant it keeps, and the obligations about
the state elements.
-/

namespace Sys2Proof.Machine

open Sys2Proof.Certificates

/-! ### The command port: what an accepted word does -/

/-- OP as the decoder reads it is OP by arithmetic (spec/30_encoding.md R70). -/
theorem opField_toNat (w : Word64) : (opField w).toNat = opOf w := by
  have := w.isLt
  simp only [opField, opOf, BitVec.extractLsb'_toNat, Nat.shiftRight_eq_div_pow]
  omega

/-- A command of the frame buffer ends in one of two ways: it has written its voxels and ERR is OK, or its ARG is out of range and
nothing but ERR differs (spec/42_frame_buffer.md R141, spec/60_exceptions.md R201). -/
def WritesOrFails (s : State) (r : Result) : Prop :=
  (∃ vs c, r = .next (setErr .ok (writeVoxels vs c s))) ∨ r = .next (setErr .indexOutOfRange s)

theorem completeWrite_writesOrFails (vs : VoxelSet) (c : Color) (s : State) : WritesOrFails s (completeWrite vs c s) :=
  .inl ⟨vs, c, rfl⟩

theorem fillAxis_writesOrFails (group : Nat → VoxelSet) (arg : Word32) (c : Color) (s : State) :
    WritesOrFails s (fillAxis group arg c s) := by
  rw [fillAxis_eq]
  split
  · exact .inl ⟨_, _, rfl⟩
  · exact .inr rfl

theorem execSet_writesOrFails (idx : Word32) (c : Color) (s : State) : WritesOrFails s (execSet idx c s) := by
  rw [execSet_eq]
  split
  · exact .inl ⟨_, _, rfl⟩
  · exact .inr rfl

/-- What an accepted word does, by its OP: a command of the frame buffer, FLUSH, or the illegal space
(spec/30_encoding.md R74, R77). -/
theorem exec_decode_cases (w : Word64) (s : State) :
    (1 ≤ opOf w ∧ opOf w ≤ 6 ∧ WritesOrFails s (exec (decode w) s)) ∨
    (opOf w = 7 ∧ exec (decode w) s = acceptFlush Config.enc Config.gamma s) ∨
    ((opOf w = 0 ∨ 8 ≤ opOf w) ∧ exec (decode w) s = .next (setErr .illegalCommand s)) := by
  rw [← opField_toNat]
  unfold decode
  split
  case h_1 h => exact .inl ⟨by omega, by omega, completeWrite_writesOrFails _ _ s⟩
  case h_2 h => exact .inl ⟨by omega, by omega, completeWrite_writesOrFails _ _ s⟩
  case h_3 h => exact .inl ⟨by omega, by omega, execSet_writesOrFails _ _ s⟩
  case h_4 h => exact .inl ⟨by omega, by omega, fillAxis_writesOrFails panel _ _ s⟩
  case h_5 h => exact .inl ⟨by omega, by omega, fillAxis_writesOrFails slice _ _ s⟩
  case h_6 h => exact .inl ⟨by omega, by omega, fillAxis_writesOrFails layer _ _ s⟩
  case h_7 h => exact .inr (.inl ⟨h, rfl⟩)
  case h_8 =>
    simp only [imp_false] at *
    exact .inr (.inr ⟨by omega, rfl⟩)

/-- Where an accepted word is no model fault, what it leaves: voxels written and ERR OK, an error code and nothing else, or a frame
begun by FLUSH. -/
theorem exec_decode_next {w : Word64} {s t : State} (h : exec (decode w) s = .next t) :
    (1 ≤ opOf w ∧ opOf w ≤ 6 ∧ ∃ vs c, t = setErr .ok (writeVoxels vs c s)) ∨
    (opOf w ≠ 7 ∧ ∃ code, t = setErr code s) ∨
    (opOf w = 7 ∧ allDefined s = true ∧ t = startFrame Config.enc Config.gamma s) := by
  rcases exec_decode_cases w s with ⟨h1, h6, ⟨vs, c, heq⟩ | heq⟩ | ⟨h7, heq⟩ | ⟨hop, heq⟩ <;> rw [heq] at h
  · cases h
    exact .inl ⟨h1, h6, vs, c, rfl⟩
  · cases h
    exact .inr (.inl ⟨by omega, _, rfl⟩)
  · rcases acceptFlush_cases Config.enc Config.gamma s with ⟨hdef, hflush⟩ | ⟨-, hflush⟩ <;> rw [hflush] at h <;> cases h
    exact .inr (.inr ⟨h7, hdef, rfl⟩)
  · cases h
    exact .inr (.inl ⟨by omega, _, rfl⟩)

/-! ### A step -/

theorem step_of_accepts {s : State} {w : Word64} (h : Accepts s w) : step s = exec (decode w) (endHostMove s) := by
  obtain ⟨⟨rest, hhost⟩, hidle⟩ := h
  rw [step, cycle_of_accept hhost hidle, endHostMove, hhost, List.tail_cons]

/-- What a step can do: reset; run an accepted word; or the byte-stream port's part of a cycle, after which only the host's moves
and the port inputs may differ further (spec/70_reset_and_hazards.md R246, R248). -/
theorem step_cases (s : State) :
    (rstIn s = true ∧ step s = .next (applyReset (endHostMove s))) ∨
    (∃ w, Accepts s w ∧ step s = exec (decode w) (endHostMove s)) ∨
    ((∀ w, ¬ Accepts s w) ∧
      ∃ moves pins, step s = .next (drivePins pins (streamCycle { s with host := moves }))) := by
  have no_accept (hm : ∀ w rest, s.host ≠ .offer w :: rest) (w : Word64) : ¬ Accepts s w :=
    fun ⟨⟨rest, h⟩, _⟩ => hm w rest h
  rcases hhost : s.host with _ | ⟨_ | w | p | _, rest⟩
  case nil =>
    exact .inr (.inr ⟨no_accept (by simp [hhost]), s.host, _, cycle_of_nothing hhost⟩)
  case cons.wait =>
    exact .inr (.inr ⟨no_accept (by simp [hhost]), rest, _, cycle_of_wait hhost⟩)
  case cons.offer =>
    cases hb : s.status.busy
    · have hacc : Accepts s w := ⟨⟨rest, hhost⟩, hb⟩
      exact .inr (.inl ⟨w, hacc, step_of_accepts hacc⟩)
    · exact .inr (.inr ⟨fun v h => by simp [Accepts, hb] at h, s.host, _, cycle_of_held hhost hb⟩)
  case cons.drive =>
    obtain ⟨pins, hp⟩ := exec_portInstr p (streamCycle { s with host := rest })
    exact .inr (.inr ⟨no_accept (by simp [hhost]), rest, pins, (cycle_of_drive hhost).trans hp⟩)
  case cons.rst =>
    refine .inl ⟨by simp [rstIn, hhost], ?_⟩
    rw [step, cycle_of_rst hhost, endHostMove, hhost, List.tail_cons]

/-! ### The counters and the frame -/

theorem bytesPerColor_bounds (e : Enc) : 0 < bytesPerColor e ∧ bytesPerColor e < 32 := by
  cases e <;> decide

/-- The counters never name a place past the frame's end (spec/43_serializer.md R175). -/
theorem bytePosition_lt {e : Enc} {s : State} (hb : s.serByte.toNat < bytesPerColor e) : bytePosition e s < frameLength e := by
  have hv : s.serVox.toNat + 1 ≤ 64 := s.serVox.isLt
  have := Nat.mul_le_mul_right (bytesPerColor e) hv
  rw [Nat.add_one_mul] at this
  unfold bytePosition frameLength
  omega

/-- SER_BYTE does not wrap at its width. -/
theorem serByte_succ_toNat {e : Enc} {s : State} (hb : s.serByte.toNat < bytesPerColor e) :
    (s.serByte + 1).toNat = s.serByte.toNat + 1 := by
  have ⟨_, hlt⟩ := bytesPerColor_bounds e
  exact BitVec.toNat_add_of_lt (show s.serByte.toNat + 1 < 32 by omega)

/-- SER_BYTE stays below NB (R175). -/
theorem advanceCounters_serByte_lt {e : Enc} {s : State} (hb : s.serByte.toNat < bytesPerColor e) :
    (advanceCounters e s).serByte.toNat < bytesPerColor e := by
  have ⟨hpos, _⟩ := bytesPerColor_bounds e
  rw [advanceCounters_serByte]
  split
  · exact hpos
  · rw [serByte_succ_toNat hb]
    omega

/-- Before the frame's last byte, advancing the counters names the next place in the frame (R175). -/
theorem bytePosition_advanceCounters {e : Enc} {s : State} (hb : s.serByte.toNat < bytesPerColor e)
    (hlast : bytePosition e s + 1 ≠ frameLength e) : bytePosition e (advanceCounters e s) = bytePosition e s + 1 := by
  unfold bytePosition at *
  rw [advanceCounters_serByte, advanceCounters_serVox]
  split
  next hwrap =>
    have hvox : s.serVox.toNat + 1 < 64 := by
      have := s.serVox.isLt
      by_contra h
      rw [show s.serVox.toNat = 63 by omega, frameLength] at hlast
      omega
    have hsucc : (s.serVox + 1).toNat = s.serVox.toNat + 1 := BitVec.toNat_add_of_lt hvox
    rw [hsucc, Nat.add_one_mul, show (0 : BitVec 5).toNat = 0 from rfl]
    omega
  · rw [serByte_succ_toNat hb, Nat.add_assoc]

/-- The frame's first j + 1 bytes are its first j and byte j (R172). -/
theorem frame_take_succ {e : Enc} {g : GammaTable} {fb : Vector Color 64} {j : Nat} (h : j < frameLength e) :
    (frame e g fb).take (j + 1) = (frame e g fb).take j ++ [frameByte e g fb j] := by
  rw [List.take_add_one]
  simp [frame, h]

/-! ### The invariant, operation by operation -/

theorem inv_of_idle {s : State} (herr : LegalError s) (hb : s.status.busy = false) (hidle : IdleShape s) : Inv s :=
  ⟨herr, fun _ => hidle, fun h => by simp [hb] at h⟩

theorem inv_of_busy {s : State} (herr : LegalError s) (hb : s.status.busy = true) (hframe : FrameShape s) : Inv s :=
  ⟨herr, fun h => by simp [hb] at h, fun _ => hframe⟩

/-- A byte is offered only inside a frame (spec/43_serializer.md R183). -/
theorem busy_of_txValid {s : State} (h : Inv s) (hv : s.txValid = true) : s.status.busy = true := by
  obtain ⟨-, hidle, -⟩ := h
  by_contra hb
  have ⟨hnone, _⟩ := hidle (by simpa using hb)
  simp [hv] at hnone

/-- The transfer of a byte that is not the frame's last leaves the frame's shape, one byte on (R174 to R176). -/
theorem transfer_keeps_frameShape {s : State} (h : FrameShape s)
    (hlast : bytePosition Config.enc s + 1 ≠ frameLength Config.enc) :
    FrameShape (loadTxData (offeredByte Config.enc Config.gamma s (bytePosition Config.enc s + 1))
      (advanceCounters Config.enc (sendByte (endTxAnswer s)))) := by
  obtain ⟨hvalid, hbyte, hdata, hdef, before, hsent⟩ := h
  have hlt := bytePosition_lt hbyte
  have hpos : bytePosition Config.enc (advanceCounters Config.enc (sendByte (endTxAnswer s))) =
      bytePosition Config.enc s + 1 := bytePosition_advanceCounters (s := sendByte (endTxAnswer s)) hbyte hlast
  refine ⟨hvalid, advanceCounters_serByte_lt (s := sendByte (endTxAnswer s)) hbyte, ?_, hdef, before, ?_⟩
  · show offeredByte _ _ s _ = frameByte _ _ s.fb (bytePosition _ (advanceCounters _ _))
    rw [hpos, offeredByte, if_pos (by omega)]
  · show before ++ (frame _ _ s.fb).take (bytePosition _ (advanceCounters _ _)) = s.transferred ++ [s.txData]
    rw [hpos, frame_take_succ hlt, ← List.append_assoc, hsent, hdata]

/-- The byte-stream port's part of a cycle keeps the invariant, whatever the transmitter answers. -/
theorem streamCycle_keeps_inv {s : State} (h : Inv s) : Inv (streamCycle s) := by
  have hbusy := busy_of_txValid h
  obtain ⟨herr, hidle, hframe⟩ := h
  unfold streamCycle
  rcases transmitterCycle_cases Config.enc Config.gamma s with ⟨_, heq⟩ | ⟨_, _, heq⟩ | ⟨hv, _, hp, heq⟩ | ⟨_, _, _, heq⟩ <;>
    rw [heq]
  · exact ⟨herr, hidle, hframe⟩
  · exact ⟨herr, hidle, hframe⟩
  · exact inv_of_busy herr (hbusy hv) (transfer_keeps_frameShape (hframe (hbusy hv)) hp)
  · exact inv_of_idle (by simp [LegalError]) rfl ⟨rfl, rfl, rfl⟩

/-- A cycle with rst = 1 makes the invariant true, from any state (spec/70_reset_and_hazards.md R231). -/
theorem applyReset_inv (s : State) : Inv (applyReset s) :=
  inv_of_idle (by simp [LegalError]) rfl ⟨rfl, rfl, rfl⟩

theorem errBits_ne_three (code : ErrCode) : errBits code ≠ 3 := by
  cases code <;> decide

theorem setErr_keeps_inv {s : State} (code : ErrCode) (h : Inv s) : Inv (setErr code s) :=
  have ⟨_, hidle, hframe⟩ := h
  ⟨errBits_ne_three code, hidle, hframe⟩

/-- Between frames a write of voxels keeps the invariant; inside one it could change the frame. -/
theorem writeVoxels_keeps_inv {s : State} (vs : VoxelSet) (c : Color) (h : Inv s) (hb : s.status.busy = false) :
    Inv (writeVoxels vs c s) :=
  have ⟨herr, hidle, _⟩ := h
  inv_of_idle herr hb (hidle hb)

/-- FLUSH begins a frame at its byte 0, with nothing sent yet (spec/43_serializer.md R171). -/
theorem startFrame_inv {s : State} (herr : LegalError s) (hdef : ∀ i : Fin 64, s.defined[i] = true) :
    Inv (startFrame Config.enc Config.gamma s) := by
  have hpos : bytePosition Config.enc (startFrame Config.enc Config.gamma s) = 0 := by simp [bytePosition]
  refine inv_of_busy herr rfl ⟨rfl, (bytesPerColor_bounds _).1, ?_, hdef, ?_⟩
  · rw [hpos]
    rfl
  · rw [FramePartSent, hpos]
    exact List.nil_suffix

/-- A word accepted between frames keeps the invariant. -/
theorem exec_decode_keeps_inv {s t : State} {w : Word64} (h : Inv s) (hb : s.status.busy = false)
    (hexec : exec (decode w) s = .next t) : Inv t := by
  rcases exec_decode_next hexec with ⟨-, -, vs, c, rfl⟩ | ⟨-, code, rfl⟩ | ⟨-, hdef, rfl⟩
  · exact setErr_keeps_inv _ (writeVoxels_keeps_inv vs c h hb)
  · exact setErr_keeps_inv _ h
  · have ⟨herr, _⟩ := h
    exact startFrame_inv herr ((allDefined_iff s).mp hdef)

/-- Settles O53, by what a step can do: each of its parts keeps the invariant, which does not speak of the host's moves or of the
ports' inputs. -/
theorem everyStepKeepsTheInvariant : Obligations.EveryStepKeepsTheInvariant := by
  intro s t h hstep
  rcases step_cases s with ⟨-, heq⟩ | ⟨w, ⟨-, hb⟩, heq⟩ | ⟨-, moves, pins, heq⟩ <;> rw [heq] at hstep
  · cases hstep
    exact applyReset_inv _
  · have hinv : Inv (endHostMove s) := h
    exact exec_decode_keeps_inv hinv hb hstep
  · cases hstep
    have hinv : Inv { s with host := moves } := h
    exact streamCycle_keeps_inv hinv

/-- Settles O52: ERR is 0 after reset and the serializer is between frames. -/
theorem invariantHoldsAtReset : Obligations.InvariantHoldsAtReset :=
  inv_of_idle (by simp [LegalError, State.reset]) rfl ⟨rfl, rfl, rfl⟩

/-! ### The voxels -/

/-- What a step with rst = 0 does to the voxels: it accepts a command of the frame buffer, which writes some of them in one colour,
or it leaves all of them and their DEF bits (spec/10_state.md R22, R27). -/
theorem step_voxels {s t : State} (hstep : step s = .next t) (hrst : rstIn s = false) :
    (∃ w vs c, Accepts s w ∧ 1 ≤ opOf w ∧ opOf w ≤ 6 ∧
      t.fb = (writeVoxels vs c s).fb ∧ t.defined = (writeVoxels vs c s).defined) ∨
    (t.fb = s.fb ∧ t.defined = s.defined) := by
  rcases step_cases s with ⟨hrst', -⟩ | ⟨w, hacc, heq⟩ | ⟨-, moves, pins, heq⟩
  · simp [hrst] at hrst'
  · rcases exec_decode_next (heq.symm.trans hstep) with ⟨h1, h6, vs, c, rfl⟩ | ⟨-, code, rfl⟩ | ⟨-, -, rfl⟩
    · exact .inl ⟨w, vs, c, hacc, h1, h6, rfl, rfl⟩
    · exact .inr ⟨rfl, rfl⟩
    · exact .inr ⟨rfl, rfl⟩
  · rw [heq] at hstep
    cases hstep
    have ⟨hfb, hdef, _⟩ := transmitterCycle_frame Config.enc Config.gamma { s with host := moves }
    exact .inr ⟨hfb, hdef⟩

/-- A voxel whose DEF bit is 1 keeps it through every step with rst = 0 (R27). -/
theorem step_keeps_defined {s t : State} (hstep : step s = .next t) (hrst : rstIn s = false) {i : Nat} (hi : i < 64)
    (h : s.defined[i] = true) : t.defined[i] = true := by
  rcases step_voxels hstep hrst with ⟨w, vs, c, -, -, -, -, hdef⟩ | ⟨-, hdef⟩ <;> simp [hdef, h]

/-- Where every voxel is written, a step with rst = 0 answers a next state: FLUSH, the only command that can fault, does not. -/
theorem step_next_of_allDefined {s : State} (hdef : allDefined s = true) (hrst : rstIn s = false) : ∃ t, step s = .next t := by
  rcases step_cases s with ⟨hrst', -⟩ | ⟨w, -, heq⟩ | ⟨-, moves, pins, heq⟩
  · simp [hrst] at hrst'
  · rcases exec_decode_cases w (endHostMove s) with ⟨-, -, ⟨vs, c, hw⟩ | hw⟩ | ⟨-, hw⟩ | ⟨-, hw⟩
    · exact ⟨_, heq.trans hw⟩
    · exact ⟨_, heq.trans hw⟩
    · have hflush : acceptFlush Config.enc Config.gamma (endHostMove s) = .next _ := if_pos hdef
      exact ⟨_, (heq.trans hw).trans hflush⟩
    · exact ⟨_, heq.trans hw⟩
  · exact ⟨_, heq⟩

/-- Settles O57: the step goes on because no FLUSH can fault, and keeps each DEF bit. -/
theorem fullyWrittenBlockGoesOn : Obligations.FullyWrittenBlockGoesOn := by
  intro s hdef hrst
  obtain ⟨t, hstep⟩ := step_next_of_allDefined ((allDefined_iff s).mpr hdef) hrst
  exact ⟨t, hstep, fun i => step_keeps_defined hstep hrst i.isLt (hdef i)⟩

/-- Settles O27: a step that leaves some voxel or DEF bit different has accepted a command of the frame buffer, and the voxel is in
the set that the command wrote. -/
theorem onlyMutatorsWriteVoxels : Obligations.OnlyMutatorsWriteVoxels := by
  intro s t i hi hstep hrst
  refine ⟨fun hchanged => ?_, step_keeps_defined hstep hrst hi⟩
  rcases step_voxels hstep hrst with ⟨w, vs, c, hacc, h1, h6, hfb, hdef⟩ | ⟨hfb, hdef⟩
  · have hwritten : vs i = true := by
      by_contra hno
      simp [hfb, hdef, hno] at hchanged
    exact ⟨by simp [hdef, hwritten], w, hacc, h1, h6⟩
  · simp [hfb, hdef] at hchanged

/-! ### STATUS -/

/-- The byte-stream port's part of a cycle writes STATUS only where it completes a FLUSH, which it does only while it offers a byte
(spec/43_serializer.md R177). -/
theorem streamCycle_status (s : State) :
    (streamCycle s).status = s.status ∨ (s.txValid = true ∧ (streamCycle s).status = ⟨false, 0⟩) := by
  unfold streamCycle
  rcases transmitterCycle_cases Config.enc Config.gamma s with ⟨_, heq⟩ | ⟨_, _, heq⟩ | ⟨_, _, _, heq⟩ | ⟨hv, _, _, heq⟩ <;>
    rw [heq]
  · exact .inl rfl
  · exact .inl rfl
  · exact .inl rfl
  · exact .inr ⟨hv, rfl⟩

/-- A step with rst = 0 that accepts no word keeps STATUS or completes a FLUSH, which leaves BUSY and ERR at 0. -/
theorem step_status_of_no_accept {s t : State} (hstep : step s = .next t) (hrst : rstIn s = false)
    (hno : ∀ w, ¬ Accepts s w) : t.status = s.status ∨ (s.txValid = true ∧ t.status = ⟨false, 0⟩) := by
  rcases step_cases s with ⟨hrst', -⟩ | ⟨w, hacc, -⟩ | ⟨-, moves, pins, heq⟩
  · simp [hrst] at hrst'
  · exact absurd hacc (hno w)
  · rw [heq] at hstep
    cases hstep
    exact streamCycle_status { s with host := moves }

/-- The acceptance of a FLUSH begins a frame and writes no ERR (spec/43_serializer.md R171). -/
theorem step_err_of_flush {s t : State} {w : Word64} (hstep : step s = .next t) (hacc : Accepts s w) (hop : opOf w = 7) :
    t.status.err = s.status.err := by
  rcases exec_decode_next ((step_of_accepts hacc).symm.trans hstep) with ⟨-, h6, -⟩ | ⟨h7, -⟩ | ⟨-, -, rfl⟩
  · omega
  · exact absurd hop h7
  · rfl

/-- Settles O29: without an accepted word only the completion of a FLUSH writes STATUS, and it writes 0 to BUSY and ERR; the
invariant rules out a completion in a block that is not BUSY. -/
theorem errKeepsTheLastCompletedCode : Obligations.ErrKeepsTheLastCompletedCode := by
  intro s t hinv hstep hrst
  refine ⟨fun hno hbusy => ?_, fun w hacc hop => step_err_of_flush hstep hacc hop, fun hbusy hdone => ?_⟩
  · rcases step_status_of_no_accept hstep hrst hno with h | ⟨hvalid, h⟩
    · rw [h]
    · have := hbusy (busy_of_txValid hinv hvalid)
      simp [h] at this
  · have hno (w : Word64) : ¬ Accepts s w := fun ⟨_, hidle⟩ => by simp [hbusy] at hidle
    rcases step_status_of_no_accept hstep hrst hno with h | ⟨-, h⟩
    · simp [h, hbusy] at hdone
    · rw [h]

/-- STATUS as a number: BUSY in bit 0, ERR in the two bits above it, and nothing above those (spec/10_state.md R25). -/
theorem statusWord_toNat (st : Status) : (statusWord st).toNat = 2 * st.err.toNat + st.busy.toNat := by
  rcases st with ⟨busy, err⟩
  revert busy err
  decide

/-- Settles O31: the three fields of the byte, by arithmetic on its value. -/
theorem statusFieldsAndHardwiredZeros : Obligations.StatusFieldsAndHardwiredZeros := by
  intro s
  have herr := s.status.err.isLt
  have hbusy := s.status.busy.toNat_lt
  rw [statusOut, statusWord_toNat]
  omega

/-- Settles O1: each element as `State.reset` gives it. -/
theorem resetValuesOfTheSpec : Obligations.ResetValuesOfTheSpec :=
  ⟨fun _ _ => by simp [State.reset], rfl, rfl, rfl, rfl, rfl, rfl, rfl⟩

/-! ### The function ports -/

/-- Settles O41: an output is computed from its port's inputs and the build's constants, so equal inputs give equal outputs. -/
theorem portOutputsFollowTheirOwnInputs : Obligations.PortOutputsFollowTheirOwnInputs := by
  intro s t
  refine ⟨fun hv => ?_, fun hp => ?_, fun hrgb hfactor => ?_, fun hrgb => ?_⟩
  · rw [gammaOut, hv, gammaOut]
  · rw [wheelOut, hp, wheelOut]
  · rw [fadeOut, hrgb, hfactor, fadeOut]
  · rw [encOut, hrgb, encOut]

end Sys2Proof.Machine
end

section
/-!
PROOF. The family of the memory (spec/20_memory.md): the voxel address decoder and the sets of one axis, the packing of a colour,
the sub-bits of an encoded colour, and what neither a FLUSH nor a function port changes.
-/

namespace Sys2Proof

/-! ### The packing of a colour -/

/-- Two words side by side, as a number. -/
theorem toNat_append_eq_add {m n : Nat} (x : BitVec m) (y : BitVec n) : (x ++ y).toNat = x.toNat * 2 ^ n + y.toNat := by
  rw [BitVec.toNat_append, ← Nat.shiftLeft_add_eq_or_of_lt y.isLt, Nat.shiftLeft_eq]

theorem packColor_toNat (c : Color) : (packColor c).toNat = c.r.toNat * 2 ^ 16 + c.g.toNat * 2 ^ 8 + c.b.toNat := by
  rw [packColor, toNat_append_eq_add, toNat_append_eq_add]
  omega

/-- Each channel stands whole in its own eight bits. -/
@[simp] theorem unpackColor_packColor (c : Color) : unpackColor (packColor c) = c := by
  have hpacked := packColor_toNat c
  have hg := c.g.isLt
  have hb := c.b.isLt
  rw [unpackColor, Color.mk.injEq]
  refine ⟨BitVec.eq_of_toNat_eq ?_, BitVec.eq_of_toNat_eq ?_, BitVec.eq_of_toNat_eq ?_⟩ <;>
    rw [BitVec.extractLsb'_toNat, Nat.shiftRight_eq_div_pow] <;> omega

/-- The three channels take up all 24 bits. -/
@[simp] theorem packColor_unpackColor (w : Word24) : packColor (unpackColor w) = w := by
  simp only [packColor, unpackColor]
  rw [BitVec.extractLsb'_append_extractLsb'_eq_extractLsb' (by rfl),
    BitVec.extractLsb'_append_extractLsb'_eq_extractLsb' (by rfl)]
  exact BitVec.extractLsb'_eq_self

/-- Settles O4: the packed word as a number, and the two round trips. -/
theorem colourPacking : Obligations.ColourPacking :=
  ⟨fun c => ⟨packColor_toNat c, unpackColor_packColor c⟩, packColor_unpackColor⟩

end Sys2Proof

namespace Sys2Proof.Machine

/-! ### What neither a FLUSH nor a function port changes -/

/-- A step of a BUSY block with rst = 0 accepts no word, so it always answers a next state. -/
theorem step_next_of_busy {s : State} (hbusy : s.status.busy = true) (hrst : rstIn s = false) : ∃ t, step s = .next t := by
  rcases step_cases s with ⟨hrst', -⟩ | ⟨w, ⟨-, hidle⟩, -⟩ | ⟨-, moves, pins, heq⟩
  · simp [hrst] at hrst'
  · simp [hbusy] at hidle
  · exact ⟨_, heq⟩

/-- Settles O28: the only steps with rst = 0 that write a voxel or a DEF bit accept a word, and a BUSY block accepts none. -/
theorem frameBufferHoldsDuringFlush : Obligations.FrameBufferHoldsDuringFlush := by
  intro s hbusy hrst
  obtain ⟨t, hstep⟩ := step_next_of_busy hbusy hrst
  rcases step_voxels hstep hrst with ⟨w, vs, c, ⟨-, hidle⟩, -⟩ | hkept
  · simp [hbusy] at hidle
  · exact ⟨t, hstep, hkept⟩

/-- Settles O42: the port's use comes on top of the cycle the host spends waiting, and writes the ports' inputs only. -/
theorem portUseDisturbsNothing : Obligations.PortUseDisturbsNothing := by
  intro s p rest hhost
  obtain ⟨pins, hport⟩ := exec_portInstr p (streamCycle { s with host := rest })
  exact ⟨_, _, (cycle_of_drive hhost).trans hport, cycle_of_wait rfl, rfl⟩

/-! ### The line -/

/-- A byte of the first encoding is the pulse of its one logical bit (spec/41_encoder.md R121, R131). -/
theorem subBits_bytePattern (bit : Bool) : subBits (bytePattern bit) = pulse .bytePerBit bit := by
  cases bit <;> decide

/-- A byte of the second encoding is the pulses of its two logical bits, the upper nibble's first (R122, R124, R131). -/
theorem subBits_nibblePatterns (upper lower : Bool) :
    subBits (nibblePattern upper ++ nibblePattern lower) = pulse .nibblePerBit upper ++ pulse .nibblePerBit lower := by
  cases upper <;> cases lower <;> decide

/-- Going through 2n numbers one by one is going through n pairs of neighbours. -/
theorem flatMap_range_two_mul {α : Type} (f : Nat → List α) (n : Nat) :
    (List.range (2 * n)).flatMap f = (List.range n).flatMap fun k => f (2 * k) ++ f (2 * k + 1) := by
  induction n with
  | zero => rfl
  | succ n ih => simp [Nat.mul_succ, List.range_succ, ih]

/-- Settles O45: byte by byte, each logical bit is sent as its pulse; where a byte holds two of them, the bits are gone through in
pairs. -/
theorem encodedColourOnTheLine : Obligations.EncodedColourOnTheLine := by
  intro e c
  rw [lineSubBits, encodeColor, List.flatMap_map]
  cases e with
  | bytePerBit => simp only [encodedByte, subBits_bytePattern, bytesPerColor]
  | nibblePerBit =>
    simp only [encodedByte, subBits_nibblePatterns]
    exact (flatMap_range_two_mul (fun k => pulse .nibblePerBit (logicalBit c k)) 12).symm

/-! ### The voxel address decoder -/

theorem voxelIndex_lt {x y z : Nat} (hx : x < 4) (hy : y < 4) (hz : z < 4) : voxelIndex x y z < 64 := by
  unfold voxelIndex
  omega

theorem voxelX_voxelIndex {x : Nat} (hx : x < 4) (y z : Nat) : voxelX (voxelIndex x y z) = x := by
  unfold voxelX voxelIndex
  omega

theorem voxelY_voxelIndex {x y : Nat} (hx : x < 4) (hy : y < 4) (z : Nat) : voxelY (voxelIndex x y z) = y := by
  unfold voxelY voxelIndex
  omega

theorem voxelZ_voxelIndex {x y z : Nat} (hx : x < 4) (hy : y < 4) (hz : z < 4) : voxelZ (voxelIndex x y z) = z := by
  unfold voxelZ voxelIndex
  omega

theorem coordinates_lt (i : Nat) : voxelX i < 4 ∧ voxelY i < 4 ∧ voxelZ i < 4 :=
  ⟨Nat.mod_lt _ (by decide), Nat.mod_lt _ (by decide), Nat.mod_lt _ (by decide)⟩

theorem voxelIndex_coordinates {i : Nat} (hi : i < 64) : voxelIndex (voxelX i) (voxelY i) (voxelZ i) = i := by
  unfold voxelIndex voxelX voxelY voxelZ
  omega

/-- Settles O25: the three coordinates are the base-4 digits of the index, and below 64 it has no fourth. -/
theorem voxelDecoderIsABijection : Obligations.VoxelDecoderIsABijection := by
  refine ⟨fun x hx y hy z hz => ⟨rfl, voxelIndex_lt hx hy hz, voxelX_voxelIndex hx y z, voxelY_voxelIndex hx hy z,
    voxelZ_voxelIndex hx hy hz⟩, fun i hi => ?_⟩
  obtain ⟨hx, hy, hz⟩ := coordinates_lt i
  exact ⟨hx, hy, hz, voxelIndex_coordinates hi⟩

/-! ### Panels, slices and layers -/

/-- A set of voxels, in increasing order, is the list of the entries 0 to m - 1, where `place` says which entry each member is. -/
theorem members_eq_entries {vs : VoxelSet} {m : Nat} {entry : Nat → Nat} (place : Nat → Nat)
    (hmono : ∀ j k, j < k → entry j < entry k)
    (hplace : ∀ i k, (i < 64 ∧ vs i = true) ∧ place i = k ↔ k < m ∧ entry k = i) :
    (List.range 64).filter vs = (List.range m).map entry := by
  have hfilter : ((List.range 64).filter vs).SortedLT := (List.pairwise_lt_range.filter vs).sortedLT
  have hmap : ((List.range m).map entry).SortedLT := (List.pairwise_lt_range.map entry hmono).sortedLT
  refine hfilter.eq_of_mem_iff hmap fun i => ?_
  simp only [List.mem_filter, List.mem_map, List.mem_range, ← hplace, exists_eq_right']

theorem panel_iff {a i : Nat} : panel a i = true ↔ i % 4 = a := by
  simp [panel, voxelX]

theorem slice_iff {a i : Nat} : slice a i = true ↔ i / 4 % 4 = a := by
  simp [slice, voxelY]

theorem layer_iff {a i : Nat} : layer a i = true ↔ i / 16 % 4 = a := by
  simp [layer, voxelZ]

/-! The members of each set of one axis, by the place of a member in it (spec/20_memory.md R54). -/

theorem panel_members {a : Nat} (ha : a < 4) : (List.range 64).filter (panel a) = (List.range 16).map fun k => a + 4 * k :=
  members_eq_entries (fun i => i / 4) (by omega) fun i k => by rw [panel_iff]; omega

theorem slice_members {a : Nat} (ha : a < 4) :
    (List.range 64).filter (slice a) = (List.range 16).map fun k => k % 4 + 4 * a + 16 * (k / 4) :=
  members_eq_entries (fun i => i % 4 + 4 * (i / 16)) (by omega) fun i k => by rw [slice_iff]; omega

theorem layer_members {a : Nat} (ha : a < 4) : (List.range 64).filter (layer a) = (List.range 16).map fun k => 16 * a + k :=
  members_eq_entries (fun i => i % 16) (by omega) fun i k => by rw [layer_iff]; omega

/-! The members of two sets of different axes, by the third coordinate (spec/42_frame_buffer.md R148). -/

theorem panel_slice_members {a b : Nat} (ha : a < 4) (hb : b < 4) :
    ((List.range 64).filter fun i => panel a i && slice b i) = (List.range 4).map fun z => a + 4 * b + 16 * z :=
  members_eq_entries voxelZ (by omega) fun i z => by rw [Bool.and_eq_true, panel_iff, slice_iff, voxelZ]; omega

theorem panel_layer_members {a b : Nat} (ha : a < 4) (hb : b < 4) :
    ((List.range 64).filter fun i => panel a i && layer b i) = (List.range 4).map fun y => a + 4 * y + 16 * b :=
  members_eq_entries voxelY (by omega) fun i y => by rw [Bool.and_eq_true, panel_iff, layer_iff, voxelY]; omega

theorem slice_layer_members {a b : Nat} (ha : a < 4) (hb : b < 4) :
    ((List.range 64).filter fun i => slice a i && layer b i) = (List.range 4).map fun x => x + 4 * a + 16 * b :=
  members_eq_entries voxelX (by omega) fun i x => by rw [Bool.and_eq_true, slice_iff, layer_iff, voxelX]; omega

/-- Settles O24: each of the six sets, listed in increasing order. -/
theorem axisSetsHaveSixteenMembers : Obligations.AxisSetsHaveSixteenMembers := fun _ ha _ hb =>
  ⟨panel_members ha, .of_eq (slice_members ha), layer_members ha, panel_slice_members ha hb, panel_layer_members ha hb,
    slice_layer_members ha hb⟩

end Sys2Proof.Machine
end

section
/-!
PROOF. The family of the encoding (spec/30_encoding.md): the fields of a command word as numbers, the decoder and the encoder, the
assembler's pseudo-instructions, and the packed bytes of the port ENCODE.
-/

namespace Sys2Proof.Machine

open Sys2Proof.Certificates

/-! ### The fields of a command word -/

/-- ARG as the decoder reads it is ARG by arithmetic (spec/30_encoding.md R70, R72). -/
theorem argField_eq_argOf (w : Word64) : argField w = BitVec.ofNat 32 (argOf w) := by
  apply BitVec.eq_of_toNat_eq
  simp only [argField, argOf, BitVec.extractLsb'_toNat, Nat.shiftRight_eq_div_pow, BitVec.toNat_ofNat, Nat.mod_mod]

/-- COL as the decoder reads it is COL by arithmetic (R70, R73). -/
theorem colField_eq_colOf (w : Word64) : colField w = colOf w := by
  rw [colField, unpackColor, colOf, Color.mk.injEq]
  refine ⟨BitVec.eq_of_toNat_eq ?_, BitVec.eq_of_toNat_eq ?_, BitVec.eq_of_toNat_eq ?_⟩ <;>
    simp only [BitVec.extractLsb'_toNat, Nat.shiftRight_eq_div_pow, BitVec.toNat_ofNat] <;> omega

/-- A command word as a number: each field at its place (R85). -/
theorem commandWord_toNat (op : Byte) (arg : Word32) (col : Word24) :
    (commandWord op arg col).toNat = op.toNat * 2 ^ 56 + arg.toNat * 2 ^ 24 + col.toNat := by
  rw [commandWord, toNat_append_eq_add, toNat_append_eq_add]
  omega

@[simp] theorem opOf_commandWord (op : Byte) (arg : Word32) (col : Word24) : opOf (commandWord op arg col) = op.toNat := by
  rw [opOf, commandWord_toNat]
  omega

@[simp] theorem argOf_commandWord (op : Byte) (arg : Word32) (col : Word24) : argOf (commandWord op arg col) = arg.toNat := by
  rw [argOf, commandWord_toNat]
  omega

@[simp] theorem colOf_commandWord (op : Byte) (arg : Word32) (col : Word24) :
    colOf (commandWord op arg col) = unpackColor col := by
  have hcol : (commandWord op arg col).extractLsb' 0 24 = col := by
    apply BitVec.eq_of_toNat_eq
    rw [BitVec.extractLsb'_toNat, commandWord_toNat, Nat.shiftRight_zero]
    omega
  rw [← colField_eq_colOf, colField, hcol]

/-! ### The decoder, an equation for each OP of the map -/

section

variable {w : Word64}

theorem decode_eq_init (h : opOf w = 1) : decode w = .init (colOf w) := by
  simp [decode, opField_toNat, h, colField_eq_colOf]

theorem decode_eq_fill (h : opOf w = 2) : decode w = .fill (colOf w) := by
  simp [decode, opField_toNat, h, colField_eq_colOf]

theorem decode_eq_set (h : opOf w = 3) : decode w = .set (BitVec.ofNat 32 (argOf w)) (colOf w) := by
  simp [decode, opField_toNat, h, argField_eq_argOf, colField_eq_colOf]

theorem decode_eq_fillp (h : opOf w = 4) : decode w = .fillp (BitVec.ofNat 32 (argOf w)) (colOf w) := by
  simp [decode, opField_toNat, h, argField_eq_argOf, colField_eq_colOf]

theorem decode_eq_fills (h : opOf w = 5) : decode w = .fills (BitVec.ofNat 32 (argOf w)) (colOf w) := by
  simp [decode, opField_toNat, h, argField_eq_argOf, colField_eq_colOf]

theorem decode_eq_filll (h : opOf w = 6) : decode w = .filll (BitVec.ofNat 32 (argOf w)) (colOf w) := by
  simp [decode, opField_toNat, h, argField_eq_argOf, colField_eq_colOf]

theorem decode_eq_flush (h : opOf w = 7) : decode w = .flush := by
  simp [decode, opField_toNat, h]

/-- Every OP outside the map is ILLEGAL (R77). -/
theorem decode_eq_illegal (h : opOf w = 0 ∨ 8 ≤ opOf w) : decode w = .illegal (BitVec.ofNat 8 (opOf w)) := by
  rw [← opField_toNat] at h ⊢
  unfold decode
  split
  case h_8 => rw [BitVec.ofNat_toNat, BitVec.setWidth_eq]
  all_goals omega

end

/-- Settles O5: the equations of the decoder, OP by OP. -/
theorem decodeFollowsTheOpcodeMap : Obligations.DecodeFollowsTheOpcodeMap := fun _ =>
  ⟨decode_eq_init, decode_eq_fill, decode_eq_set, decode_eq_fillp, decode_eq_fills, decode_eq_filll, decode_eq_flush,
    decode_eq_illegal⟩

/-- Settles O10: the decoder evaluated on each of the eight words. -/
theorem wordsOfTheSpecDecode : Obligations.WordsOfTheSpecDecode := by
  unfold Obligations.WordsOfTheSpecDecode
  decide

/-! ### The decoder and the encoder -/

/-- A well-formed ILLEGAL stands for an OP outside the map (R77). -/
theorem illegal_wellFormed_iff {op : Byte} : (Instr.illegal op).wellFormed = true ↔ op.toNat = 0 ∨ 8 ≤ op.toNat := by
  simp only [Instr.wellFormed, isMappedOp, Bool.not_eq_true', Bool.and_eq_false_iff, decide_eq_false_iff_not]
  omega

/-- Settles O6, constructor by constructor: the encoder puts each operand in the field that the decoder's equation for that OP reads
it from. -/
theorem decodeOfEncodeIsTheInstruction : Obligations.DecodeOfEncodeIsTheInstruction := by
  intro i w hwf henc
  cases i with
  | init c => cases henc; simp [decode_eq_init]
  | fill c => cases henc; simp [decode_eq_fill]
  | set idx c => cases henc; simp [decode_eq_set]
  | fillp p c => cases henc; simp [decode_eq_fillp]
  | fills y c => cases henc; simp [decode_eq_fills]
  | filll l c => cases henc; simp [decode_eq_filll]
  | flush => cases henc; simp [decode_eq_flush]
  | illegal op => cases henc; simp [decode_eq_illegal, illegal_wellFormed_iff.mp hwf]
  | gamma v | wheel p | fade rgb factor | encode rgb => cases henc

/-- The commands are the instructions that have a word (R80). -/
theorem isCommand_eq_encode_isSome (i : Instr) : i.isCommand = (encode i).isSome := by
  cases i <;> rfl

theorem decode_wellFormed (w : Word64) : (decode w).wellFormed = true := by
  unfold decode
  split
  case h_8 =>
    simp only [imp_false] at *
    exact illegal_wellFormed_iff.mpr (by omega)
  all_goals rfl

/-- Whatever word an instruction is read from, it encodes to a word with the same OP. -/
theorem encode_decode (w : Word64) : ∃ arg col, encode (decode w) = some (commandWord (opField w) arg col) := by
  have hfield : opField w = BitVec.ofNat 8 (opField w).toNat := by rw [BitVec.ofNat_toNat, BitVec.setWidth_eq]
  unfold decode
  split
  case h_8 => exact ⟨_, _, rfl⟩
  all_goals
    next hop =>
    rw [hfield, hop]
    exact ⟨_, _, rfl⟩

/-- Settles O7: the word is the encoder's, and it decodes back because the decoder answers well-formed instructions only. -/
theorem everyWordIsAWellFormedCommand : Obligations.EveryWordIsAWellFormedCommand := by
  intro w
  obtain ⟨arg, col, henc⟩ := encode_decode w
  refine ⟨decode_wellFormed w, ?_, _, henc, ?_, decodeOfEncodeIsTheInstruction _ _ (decode_wellFormed w) henc⟩
  · rw [isCommand_eq_encode_isSome, henc, Option.isSome_some]
  · rw [opOf_commandWord, opField_toNat]

/-- Settles O8: the decoder's equations for INIT, FILL and FLUSH do not name the ignored fields, and the encoder's words have zero
there. -/
theorem ignoredFieldsChangeNothing : Obligations.IgnoredFieldsChangeNothing := by
  constructor
  · rintro v w hop (⟨h | h, hcol⟩ | h)
    · rw [decode_eq_init h, decode_eq_init (hop.trans h), hcol]
    · rw [decode_eq_fill h, decode_eq_fill (hop.trans h), hcol]
    · rw [decode_eq_flush h, decode_eq_flush (hop.trans h)]
  · intro i w henc
    cases i with
    | init c | fill c | set idx c | fillp p c | fills y c | filll l c => cases henc; simp
    | flush | illegal op =>
      cases henc
      rw [argOf_commandWord, colOf_commandWord]
      exact ⟨fun _ => rfl, fun _ => by decide⟩
    | gamma v | wheel p | fade rgb factor | encode rgb => cases henc

/-- Settles O9: the number of a command word, with the colour's number in COL. -/
theorem assembledWordAsANumber : Obligations.AssembledWordAsANumber := by
  intro idx c
  refine ⟨⟨_, rfl, ?_⟩, ⟨_, rfl, ?_⟩, ⟨_, rfl, ?_⟩, ⟨_, rfl, ?_⟩, ⟨_, rfl, ?_⟩, ⟨_, rfl, ?_⟩, ⟨_, rfl, ?_⟩, by decide⟩ <;>
    simp [commandWord_toNat, packColor_toNat]

/-! ### The illegal space -/

theorem exec_illegal_onlyErr (op : Byte) (s : State) : ∃ t, exec (.illegal op) s = .next t ∧ OnlyErrBecomes 2 s t :=
  ⟨_, rfl, rfl⟩

/-- Settles O19: the meaning of ILLEGAL is to raise IllegalCommand, and an accepted word with an unmapped OP is an ILLEGAL. -/
theorem illegalOpWritesOnlyErr : Obligations.IllegalOpWritesOnlyErr := by
  refine ⟨exec_illegal_onlyErr, fun w s rest hhost hidle hop => ?_⟩
  rw [step, cycle_of_accept hhost hidle, decode_eq_illegal hop]
  exact exec_illegal_onlyErr _ _

/-! ### The assembler's pseudo-instructions -/

/-- A command of the frame buffer that completes writes the voxels of its set and no other (spec/20_memory.md R60). -/
theorem completedWrite_writesExactly {vs : VoxelSet} {members : Nat → Prop} (h : ∀ i < 64, vs i = true ↔ members i) (c : Color)
    (s : State) : WritesExactly members c s (setErr .ok (writeVoxels vs c s)) := by
  refine ⟨fun i hi => ?_, rfl, by simp [SameButVoxelsAndErr]⟩
  rw [← h i hi]
  simp +contextual

theorem oneVoxel_voxelIndex_iff {x y z i : Nat} (hx : x < 4) (hy : y < 4) :
    oneVoxel (voxelIndex x y z) i = true ↔ i % 4 = x ∧ i / 4 % 4 = y ∧ i / 16 = z := by
  simp only [oneVoxel, voxelIndex, beq_iff_eq]
  omega

/-- SET of the index of coordinates below 4 writes the voxel there (spec/42_frame_buffer.md R144). -/
theorem exec_set_voxelIndex {x y z : Nat} (hx : x < 4) (hy : y < 4) (hz : z < 4) (c : Color) (s : State) :
    exec (.set (BitVec.ofNat 32 (voxelIndex x y z)) c) s =
      .next (setErr .ok (writeVoxels (oneVoxel (voxelIndex x y z)) c s)) := by
  have hlt := voxelIndex_lt hx hy hz
  have hidx : (BitVec.ofNat 32 (voxelIndex x y z)).toNat = voxelIndex x y z := by
    rw [BitVec.toNat_ofNat]
    omega
  exact (execSet_eq _ c s).trans (by rw [hidx, if_pos hlt])

/-- Settles O26: the range check is the only way to reject, and behind it the index is one that SET accepts. -/
theorem pseudoInstructionsExpand : Obligations.PseudoInstructionsExpand := by
  refine fun x y z c s => ⟨rfl, rfl, by simp [expandPseudo], fun hx hy hz => ⟨?_, _, exec_set_voxelIndex hx hy hz c s, ?_⟩⟩
  · exact if_pos ⟨hx, hy, hz⟩
  · exact completedWrite_writesExactly (fun _ _ => oneVoxel_voxelIndex_iff hx hy) c s

/-! ### The port ENCODE -/

/-- The bytes of a bus fit in it. -/
theorem busOfBytes_lt (bytes : List Byte) : busOfBytes bytes < 2 ^ (8 * bytes.length) := by
  induction bytes with
  | nil => decide
  | cons b rest ih =>
    have hb := b.isLt
    rw [List.length_cons, Nat.mul_succ, Nat.pow_add, busOfBytes]
    omega

/-- Byte k of a list is byte k of the bus it is packed into (spec/30_encoding.md R81). -/
theorem getElem?_eq_byte_of_bus {bytes : List Byte} {k : Nat} (hk : k < bytes.length) :
    bytes[k]? = some (BitVec.ofNat 8 (busOfBytes bytes / 2 ^ (8 * k))) := by
  induction bytes generalizing k with
  | nil => simp at hk
  | cons b rest ih =>
    have hb := b.isLt
    cases k with
    | zero =>
      rw [List.getElem?_cons_zero, busOfBytes, Option.some_inj]
      apply BitVec.eq_of_toNat_eq
      rw [BitVec.toNat_ofNat]
      omega
    | succ k =>
      have hshift : busOfBytes (b :: rest) / 2 ^ (8 * (k + 1)) = busOfBytes rest / 2 ^ (8 * k) := by
        rw [Nat.mul_succ, Nat.add_comm, Nat.pow_add, ← Nat.div_div_eq_div_mul, busOfBytes]
        congr 1
        omega
      rw [List.getElem?_cons_succ, hshift]
      exact ih (by simpa using hk)

theorem encodeColor_length (e : Enc) (c : Color) : (encodeColor e c).length = bytesPerColor e := by
  simp [encodeColor]

/-- The bus has room for the whole sequence, so none of it is cut off. -/
theorem encodeBus_toNat (e : Enc) (c : Color) : (encodeBus e c).toNat = busOfBytes (encodeColor e c) := by
  have hfits := busOfBytes_lt (encodeColor e c)
  rw [encodeColor_length] at hfits
  rw [encodeBus, BitVec.toNat_ofNat, Nat.mod_eq_of_lt hfits]

/-- Settles O40: the port's output is the bus of the bytes of the driven colour, and each byte can be read off the bus. -/
theorem encodePortPacksTheSequence : Obligations.EncodePortPacksTheSequence := by
  refine fun rgb s => ⟨_, rfl, rfl, fun k hk => ?_⟩
  rw [encOut, encodeBus_toNat]
  exact getElem?_eq_byte_of_bus (by rwa [encodeColor_length])

end Sys2Proof.Machine
end

section
/-!
PROOF. The family of the colour model (spec/40_color_model.md): the gamma table and its form, the colour wheel, the fade of a channel
against the exact formulation, and the ports GAMMA, WHEEL and FADE.
-/

namespace Sys2Proof

/-! ### The gamma table -/

theorem gammaOf_zero (raw : Byte → Byte) : gammaOf raw 0 = 0 := rfl

theorem gammaOf_last (raw : Byte → Byte) : gammaOf raw 255 = 255 := rfl

/-- A table of the model's form does not fall: below 255 it is a running maximum, and at 255 it has the greatest value there is. -/
theorem gammaOf_le_succ (raw : Byte → Byte) {i : Nat} (hi : i < 255) :
    (gammaOf raw (BitVec.ofNat 8 i)).toNat ≤ (gammaOf raw (BitVec.ofNat 8 (i + 1))).toNat := by
  have below_last {j : Nat} (hj : j < 255) : (gammaOf raw (BitVec.ofNat 8 j)).toNat = risingMax raw j := by
    have hmod : j % 256 = j := Nat.mod_eq_of_lt (by omega)
    rw [gammaOf_toNat raw _ (by simpa [← BitVec.toNat_inj, hmod] using hj.ne), BitVec.toNat_ofNat, hmod]
  rw [below_last hi]
  by_cases hlast : i + 1 = 255
  · rw [hlast]
    exact risingMax_le raw i
  · rw [below_last (by omega)]
    exact risingMax_le_succ raw i

/-- Every table of the model's form has the three properties (spec/40_color_model.md R100). -/
theorem gammaOf_admissible (raw : Byte → Byte) : (gammaOf raw).Admissible :=
  ⟨gammaOf_zero raw, gammaOf_last raw, fun _ => gammaOf_le_succ raw⟩

/-- The running maximum of an admissible table is the table itself. -/
theorem risingMax_of_admissible {g : GammaTable} (hg : g.Admissible) {n : Nat} (hn : n ≤ 255) :
    risingMax g n = (g (BitVec.ofNat 8 n)).toNat := by
  obtain ⟨hzero, -, hmono⟩ := hg
  induction n with
  | zero => exact (congrArg BitVec.toNat hzero).symm
  | succ n ih => rw [risingMax, ih (by omega), max_eq_right (hmono n hn)]

/-- An admissible table has the model's form: it names itself. -/
theorem gammaOf_of_admissible {g : GammaTable} (hg : g.Admissible) : gammaOf g = g := by
  funext v
  have hrising := risingMax_of_admissible hg (Nat.le_of_lt_succ v.isLt)
  obtain ⟨-, hlast, -⟩ := hg
  unfold gammaOf
  split
  next hv => rw [hv, hlast]
  · simp [hrising]

/-- An admissible table is monotone on all pairs (R101). -/
theorem le_of_admissible {g : GammaTable} (hg : g.Admissible) {u v : Byte} (huv : u ≤ v) : g u ≤ g v := by
  obtain ⟨-, -, hmono⟩ := hg
  have upward (n : Nat) (hun : u.toNat ≤ n) : n < 256 → (g u).toNat ≤ (g (BitVec.ofNat 8 n)).toNat := by
    induction n, hun using Nat.le_induction with
    | base => simp
    | succ n _ ih => exact fun hn => (ih (by omega)).trans (hmono n (by omega))
  simpa [BitVec.le_def] using upward v.toNat huv v.isLt

/-- Settles O33: the build's table has the model's form. -/
theorem gammaTableHasTheSpecsProperties : Obligations.GammaTableHasTheSpecsProperties := gammaOf_admissible Config.gammaRaw

end Sys2Proof

namespace Sys2Proof.Machine

open Sys2Proof.Certificates

/-- Settles O34: both directions of the form, and what R101 and R102 derive from R100. -/
theorem gammaFormIsExactlyTheAdmissibleTables : Obligations.GammaFormIsExactlyTheAdmissibleTables := by
  refine ⟨gammaOf_admissible, fun _ => gammaOf_of_admissible, fun g hg => ⟨fun _ _ => le_of_admissible hg, ?_⟩⟩
  obtain ⟨hzero, hlast, -⟩ := hg
  exact ⟨by rw [gammaColor, hzero], by rw [gammaColor, hlast]⟩

/-- Settles O35: the output is the table's entry for the driven value, and the table is admissible. -/
theorem gammaPortLooksUpTheTable : Obligations.GammaPortLooksUpTheTable := by
  have hg := gammaOf_admissible Config.gammaRaw
  refine fun v s => ⟨_, rfl, rfl, rfl, fun hv => ?_, fun hv => ?_, fun u huv => le_of_admissible hg huv⟩
  · obtain ⟨hzero, -, -⟩ := hg
    rw [hv]
    exact hzero
  · obtain ⟨-, hlast, -⟩ := hg
    rw [hv]
    exact hlast

/-! ### The colour wheel -/

/-- Three channel values that fit their channels pack into the word with those values at their places (R104, R55). -/
theorem packColor_colorOfNats_toNat {r g b : Nat} (hr : r < 256) (hg : g < 256) (hb : b < 256) :
    (packColor (colorOfNats r g b)).toNat = r * 2 ^ 16 + g * 2 ^ 8 + b := by
  simp only [packColor_toNat, colorOfNats, BitVec.toNat_ofNat]
  omega

section

variable {p : Byte}

theorem wheelColor_of_first_ramp (h : p.toNat < 85) : wheelColor p = colorOfNats (3 * p.toNat) (255 - 3 * p.toNat) 0 :=
  if_pos h

theorem wheelColor_of_second_ramp (hlow : 85 ≤ p.toNat) (hhigh : p.toNat < 170) :
    wheelColor p = colorOfNats (255 - 3 * (p.toNat - 85)) 0 (3 * (p.toNat - 85)) :=
  (if_neg (by omega)).trans (if_pos hhigh)

theorem wheelColor_of_third_ramp (h : 170 ≤ p.toNat) :
    wheelColor p = colorOfNats 0 (3 * (p.toNat - 170)) (255 - 3 * (p.toNat - 170)) :=
  (if_neg (by omega)).trans (if_neg (by omega))

end

/-- Settles O36: on each ramp the three values fit their channels. -/
theorem wheelPortFollowsTheThreeRamps : Obligations.WheelPortFollowsTheThreeRamps := by
  intro p s
  have hp := p.isLt
  refine ⟨_, rfl, rfl, rfl, fun hfirst => ?_, fun hlow hhigh => ?_, fun hthird => ?_⟩ <;> simp only [wheelOut, drivePins_pins]
  · rw [wheelColor_of_first_ramp hfirst, packColor_colorOfNats_toNat (by omega) (by omega) (by omega), Nat.add_zero]
  · rw [wheelColor_of_second_ramp hlow hhigh, packColor_colorOfNats_toNat (by omega) (by omega) (by omega)]
    omega
  · rw [wheelColor_of_third_ramp hthird, packColor_colorOfNats_toNat (by omega) (by omega) (by omega)]
    omega

/-! ### The port FADE -/

/-- The channels of a packed colour, by arithmetic on its bits (R55). -/
theorem unpackColor_eq (w : Word24) :
    unpackColor w = ⟨BitVec.ofNat 8 (w.toNat / 2 ^ 16), BitVec.ofNat 8 (w.toNat / 2 ^ 8), BitVec.ofNat 8 w.toNat⟩ := by
  simp only [unpackColor, BitVec.extractLsb', Nat.shiftRight_eq_div_pow, Nat.pow_zero, Nat.div_one]

/-- The channels of the colour that a word packs, read off the word by arithmetic (R55). -/
theorem packColor_channels (c : Color) :
    (packColor c).toNat / 2 ^ 16 = c.r.toNat ∧ (packColor c).toNat / 2 ^ 8 % 256 = c.g.toNat ∧
      (packColor c).toNat % 256 = c.b.toNat := by
  have hg := c.g.isLt
  have hb := c.b.isLt
  rw [packColor_toNat]
  omega

/-- Settles O37: the result packs the three faded channels, and unpacking the driven colour gives the channels that are faded. -/
theorem fadePortScalesEachChannel : Obligations.FadePortScalesEachChannel := by
  intro rgb factor s
  obtain ⟨hr, hg, hb⟩ := packColor_channels (fadeColor (unpackColor rgb) factor)
  rw [unpackColor_eq] at hr hg hb
  refine ⟨_, rfl, rfl, ?_, ?_, ?_, fun hrgb hfactor => ?_⟩ <;> simp only [fadeOut, drivePins_pins, unpackColor_eq]
  · exact hr
  · exact hg
  · exact hb
  · rw [hrgb, hfactor]
    decide

/-! ### The layout of a factor -/

/-- The sign of a factor, by arithmetic on its bits (spec/30_encoding.md R82). -/
def factorNegative (f : Word32) : Bool := f.toNat / 2 ^ 31 = 1

/-- The magnitude of a finite factor in units of 2^-149 (R82). -/
def factorUnits (f : Word32) : Nat :=
  if f.toNat / 2 ^ 23 % 256 = 0 then f.toNat % 2 ^ 23
  else (2 ^ 23 + f.toNat % 2 ^ 23) * 2 ^ (f.toNat / 2 ^ 23 % 256 - 1)

/-- The decoder of R82 reads the sign, the exponent and the fraction that arithmetic gives. -/
theorem decodeBinary32_eq (f : Word32) :
    decodeBinary32 f =
      if f.toNat / 2 ^ 23 % 256 = 255 then (if f.toNat % 2 ^ 23 = 0 then .inf (factorNegative f) else .nan)
      else .finite (factorNegative f) (factorUnits f) := by
  have hsign : f.getLsbD 31 = factorNegative f := by
    have := f.isLt
    rw [BitVec.getLsbD, Nat.testBit_eq_decide_div_mod_eq, factorNegative, Nat.mod_eq_of_lt (by omega)]
  simp only [decodeBinary32, hsign, BitVec.extractLsb'_toNat, Nat.shiftRight_eq_div_pow, Nat.pow_zero, Nat.div_one, factorUnits]
  split
  · rfl
  · split <;> rfl

theorem decodeBinary32_of_finite {f : Word32} (h : f.toNat / 2 ^ 23 % 256 < 255) :
    decodeBinary32 f = .finite (factorNegative f) (factorUnits f) := by
  rw [decodeBinary32_eq, if_neg h.ne]

/-- The value of a finite factor is its number of units, with its sign. -/
theorem factorValue_eq (f : Word32) :
    factorValue f = (if factorNegative f then -1 else 1) * ((factorUnits f : ℚ) / 2 ^ 149) := by
  simp only [factorValue, factorUnits, factorNegative, decide_eq_true_eq]
  split
  next =>
    rw [zpow_neg, mul_assoc, ← div_eq_mul_inv]
    norm_cast
  next hnormal =>
    have hscale : (2 : ℚ) ^ (((f.toNat / 2 ^ 23 % 256 : ℕ) : ℤ) - 150) = 2 ^ (f.toNat / 2 ^ 23 % 256 - 1) / 2 ^ 149 := by
      rw [eq_div_iff (by positivity), ← zpow_natCast, ← zpow_natCast, ← zpow_add₀ two_ne_zero]
      congr 1
      omega
    rw [hscale, mul_assoc, mul_div_assoc']
    norm_cast

/-! ### Rounding -/

theorem div_le_roundHalfEven (n d : Nat) : n / d ≤ roundHalfEven n d := by
  unfold roundHalfEven
  split
  · exact le_rfl
  · split <;> omega

theorem roundHalfEven_le (n d : Nat) : roundHalfEven n d ≤ n / d + 1 := by
  unfold roundHalfEven
  split
  · omega
  · split <;> omega

theorem roundHalfEven_of_dvd {n d : Nat} (hd : 0 < d) (h : d ∣ n) : roundHalfEven n d = n / d := by
  unfold roundHalfEven
  rw [Nat.mod_eq_zero_of_dvd h, if_pos (by omega)]

/-- A number that has 24 significant bits rounds to itself. -/
theorem roundUnits_of_dvd {u : Nat} (h : 2 ^ (Nat.log2 u - 23) ∣ u) : roundUnits u = u := by
  rw [roundUnits, roundHalfEven_of_dvd (by positivity) h, Nat.div_mul_cancel h]

@[simp] theorem roundUnits_zero : roundUnits 0 = 0 := rfl

/-- Rounding never doubles a number. -/
theorem roundUnits_le (u : Nat) : roundUnits u ≤ 2 * u := by
  rcases Nat.eq_zero_or_pos u with rfl | hu
  · simp
  have hshift : 2 ^ (Nat.log2 u - 23) ≤ u :=
    (Nat.pow_le_pow_right two_pos (Nat.sub_le _ _)).trans (Nat.log2_self_le hu.ne')
  calc roundUnits u ≤ (u / 2 ^ (Nat.log2 u - 23) + 1) * 2 ^ (Nat.log2 u - 23) := Nat.mul_le_mul_right _ (roundHalfEven_le _ _)
    _ = u / 2 ^ (Nat.log2 u - 23) * 2 ^ (Nat.log2 u - 23) + 2 ^ (Nat.log2 u - 23) := Nat.succ_mul _ _
    _ ≤ u + u := Nat.add_le_add (Nat.div_mul_le_self _ _) hshift
    _ = 2 * u := (Nat.two_mul u).symm

/-- Rounding does not take a number below a multiple of its last place that it reaches. -/
theorem le_roundUnits {a u : Nat} (hdvd : 2 ^ (Nat.log2 u - 23) ∣ a) (hle : a ≤ u) : a ≤ roundUnits u :=
  calc a = a / 2 ^ (Nat.log2 u - 23) * 2 ^ (Nat.log2 u - 23) := (Nat.div_mul_cancel hdvd).symm
    _ ≤ roundUnits u := Nat.mul_le_mul_right _ ((Nat.div_le_div_right hle).trans (div_le_roundHalfEven _ _))

/-- A product of 255 or more does not round below 255. -/
theorem le_roundUnits_of_saturated {u : Nat} (h : 255 * 2 ^ 149 ≤ u) : 255 * 2 ^ 149 ≤ roundUnits u := by
  by_cases hlog : Nat.log2 u - 23 ≤ 149
  · exact le_roundUnits (dvd_mul_of_dvd_right (pow_dvd_pow 2 hlog) 255) h
  · have hpow : 2 ^ Nat.log2 u ≤ u := Nat.log2_self_le (by omega)
    calc 255 * 2 ^ 149 ≤ 2 ^ 173 := by decide
      _ ≤ 2 ^ Nat.log2 u := Nat.pow_le_pow_right two_pos (by omega)
      _ ≤ roundUnits u := le_roundUnits (pow_dvd_pow 2 (Nat.sub_le _ _)) hpow

/-- The model's rounding of a quotient of integers is that of the rationals. -/
theorem roundEvenRat_div {n d : Nat} (hd : 0 < d) : roundEvenRat ((n : ℚ) / d) = roundHalfEven n d := by
  have hfloor : ⌊(n : ℚ) / d⌋ = (n / d : ℕ) := Rat.floor_natCast_div_natCast n d
  have hd' : (0 : ℚ) < d := by exact_mod_cast hd
  have hrest : (n : ℚ) / d - (n / d : ℕ) = (n % d : ℕ) / d := by
    rw [eq_div_iff hd'.ne', sub_mul, div_mul_cancel₀ _ hd'.ne', sub_eq_iff_eq_add]
    exact_mod_cast (Nat.mod_add_div' n d).symm
  have hbelow : (n % d : ℕ) / (d : ℚ) < 1 / 2 ↔ 2 * (n % d) < d := by
    rw [div_lt_div_iff₀ hd' two_pos, one_mul, mul_comm]
    exact_mod_cast Iff.rfl
  have habove : 1 / 2 < (n % d : ℕ) / (d : ℚ) ↔ d < 2 * (n % d) := by
    rw [div_lt_div_iff₀ two_pos hd', one_mul, mul_comm]
    exact_mod_cast Iff.rfl
  simp only [roundEvenRat, roundHalfEven, hfloor, Int.cast_natCast, hrest, hbelow, habove]
  split
  · rfl
  · split
    · rfl
    · split <;> push_cast <;> omega

/-! ### The channel in units -/

/-- The channel of a magnitude in units: rounded, truncated, at most 255 (R106). -/
def clampUnits (u : Nat) : Nat := min 255 (roundUnits u / 2 ^ 149)

theorem clampUnits_of_saturated {u : Nat} (h : 255 * 2 ^ 149 ≤ u) : clampUnits u = 255 := by
  have := le_roundUnits_of_saturated h
  unfold clampUnits
  omega

theorem clampUnits_of_small {u : Nat} (h : u < 2 ^ 148) : clampUnits u = 0 := by
  have := roundUnits_le u
  unfold clampUnits
  omega

theorem clampChannel_of_negative (u : Nat) : clampChannel (roundBinary32 true u) = 0 := by
  unfold roundBinary32
  split <;> rfl

/-- A product that is not negative is clamped and truncated alike, whether it overflows to an infinity or not. -/
theorem clampChannel_toNat (u : Nat) : (clampChannel (roundBinary32 false u)).toNat = clampUnits u := by
  unfold roundBinary32 clampUnits
  split
  next hinf =>
    rw [min_eq_left (by omega)]
    rfl
  next =>
    simp only [clampChannel, Bool.false_eq_true, if_false]
    split
    next hsat =>
      rw [min_eq_left (by omega)]
      rfl
    next hbelow =>
      rw [BitVec.toNat_ofNat]
      omega

/-- A channel times an infinity is that infinity, and a NaN for the channel 0 (R107). -/
theorem clampChannel_mulChannel_inf (v : Byte) (negative : Bool) :
    clampChannel (mulChannel v (.inf negative)) = if v ≠ 0 ∧ negative = false then 255 else 0 := by
  by_cases hv : v = 0
  · rw [hv, if_neg fun ⟨hne, _⟩ => hne rfl]
    rfl
  · have hv' : v.toNat ≠ 0 := fun h => hv (BitVec.eq_of_toNat_eq h)
    rw [mulChannel, if_neg hv']
    cases negative
    · exact (if_pos ⟨hv, rfl⟩).symm
    · exact (if_neg fun ⟨_, h⟩ => Bool.false_ne_true h.symm).symm

section

variable {f : Word32}

theorem fadeChannel_toNat_of_nonneg (v : Byte) (hfinite : f.toNat / 2 ^ 23 % 256 < 255) (hsign : factorNegative f = false) :
    (fadeChannel v f).toNat = clampUnits (v.toNat * factorUnits f) := by
  rw [fadeChannel, decodeBinary32_of_finite hfinite, hsign]
  exact clampChannel_toNat _

/-- A factor with exponent 255 is an infinity or a NaN, and only the positive infinity gives a channel other than 0. -/
theorem fadeChannel_of_special (v : Byte) (hspecial : f.toNat / 2 ^ 23 % 256 = 255) :
    fadeChannel v f = if f.toNat % 2 ^ 23 = 0 ∧ v ≠ 0 ∧ f.toNat / 2 ^ 31 = 0 then 255 else 0 := by
  have hsign : f.toNat / 2 ^ 31 = 0 ↔ factorNegative f = false := by
    have := f.isLt
    rw [factorNegative, decide_eq_false_iff_not]
    omega
  simp only [fadeChannel, decodeBinary32_eq, if_pos hspecial, hsign]
  by_cases hinf : f.toNat % 2 ^ 23 = 0
  · simp only [hinf, if_true, true_and, clampChannel_mulChannel_inf]
  · simp only [hinf, if_false, false_and]
    rfl

/-- A negative factor gives 0, finite or not (R107). -/
theorem fadeChannel_of_negative (v : Byte) (hsign : f.toNat / 2 ^ 31 = 1) : fadeChannel v f = 0 := by
  by_cases hspecial : f.toNat / 2 ^ 23 % 256 = 255
  · rw [fadeChannel_of_special v hspecial, if_neg (by omega)]
  · have hnegative : factorNegative f = true := decide_eq_true hsign
    rw [fadeChannel, decodeBinary32_of_finite (by omega), hnegative]
    exact clampChannel_of_negative _

end

/-! ### The exact formulation -/

theorem fadeExact_of_nonpos {x : ℚ} (h : x ≤ 0) : fadeExact x = 0 := if_pos h

/-- Scaling by a power of the base shifts the logarithm. -/
theorem log_two_div_pow {x : ℚ} (hx : 0 < x) (k : ℕ) : Int.log 2 (x / 2 ^ k) = Int.log 2 x - k := by
  refine eq_of_forall_le_iff fun z => ?_
  rw [← Int.zpow_le_iff_le_log one_lt_two (by positivity), le_sub_iff_add_le, ← Int.zpow_le_iff_le_log one_lt_two hx,
    le_div_iff₀ (by positivity), Nat.cast_two, zpow_add₀ two_ne_zero, zpow_natCast]

/-- The exact formulation, in units: where a number has more than 23 significant bits, the last place of its rounding is a power of
two times a unit. -/
theorem fadeExact_units (u : Nat) : fadeExact ((u : ℚ) / 2 ^ 149) = clampUnits u := by
  rcases Nat.eq_zero_or_pos u with rfl | hu
  · rw [Nat.cast_zero, zero_div]
    rfl
  have hpos : 0 < (u : ℚ) / 2 ^ 149 := by positivity
  have hsat : 255 ≤ (u : ℚ) / 2 ^ 149 ↔ 255 * 2 ^ 149 ≤ u := by
    rw [le_div_iff₀ (by positivity)]
    norm_cast
  have hsmall : (u : ℚ) / 2 ^ 149 < 2 ^ (-126 : ℤ) ↔ u < 2 ^ 23 := by
    rw [div_lt_iff₀ (by positivity), show (2 : ℚ) ^ (-126 : ℤ) * 2 ^ 149 = 2 ^ 23 by norm_num]
    norm_cast
  simp only [fadeExact, if_neg hpos.not_ge, hsat, hsmall]
  split
  next h => rw [clampUnits_of_saturated h]; rfl
  split
  next h => rw [clampUnits_of_small (by omega)]; rfl
  next h =>
    have hlog : 23 ≤ Nat.log2 u := (Nat.le_log2 hu.ne').mpr (by omega)
    have hplace : (2 : ℚ) ^ (Int.log 2 ((u : ℚ) / 2 ^ 149) - 23) = 2 ^ (Nat.log2 u - 23) / 2 ^ 149 := by
      rw [log_two_div_pow (by positivity), Int.log_natCast, ← Nat.log2_eq_log_two, eq_div_iff (by positivity),
        ← zpow_natCast, ← zpow_natCast, ← zpow_add₀ two_ne_zero]
      congr 1
      omega
    have hround : (u : ℚ) / 2 ^ 149 / (2 ^ (Nat.log2 u - 23) / 2 ^ 149) = u / (2 ^ (Nat.log2 u - 23) : ℕ) := by
      rw [div_div_div_cancel_right₀ (by positivity)]
      norm_cast
    have hrounded : ((roundHalfEven u (2 ^ (Nat.log2 u - 23)) : ℤ) : ℚ) * (2 ^ (Nat.log2 u - 23) / 2 ^ 149) =
        (roundUnits u : ℕ) / (2 ^ 149 : ℕ) := by
      rw [roundUnits, mul_div_assoc']
      push_cast
      rfl
    rw [hplace, hround, roundEvenRat_div (by positivity), hrounded, Rat.floor_natCast_div_natCast, clampUnits]
    norm_cast

/-- Settles O38: a finite factor is a number of units with a sign, and a negative product gives 0; the other factors are the
infinities and the NaNs. -/
theorem fadeChannelIsTheExactFormulation : Obligations.FadeChannelIsTheExactFormulation := by
  refine fun v f => ⟨fun hfinite => ?_, fadeChannel_of_special v⟩
  rw [factorValue_eq]
  cases hsign : factorNegative f
  · have hproduct : (v.toNat : ℚ) * (1 * ((factorUnits f : ℚ) / 2 ^ 149)) = (v.toNat * factorUnits f : ℕ) / 2 ^ 149 := by
      push_cast
      ring
    rw [fadeChannel_toNat_of_nonneg v hfinite hsign, if_neg Bool.false_ne_true, hproduct, fadeExact_units]
  · have hproduct : (v.toNat : ℚ) * (-1 * ((factorUnits f : ℚ) / 2 ^ 149)) ≤ 0 := by
      rw [neg_one_mul, mul_neg]
      exact neg_nonpos.mpr (by positivity)
    rw [fadeChannel_of_negative v (of_decide_eq_true hsign), if_pos rfl, fadeExact_of_nonpos hproduct]
    rfl

/-! ### The corner cases -/

/-- A factor with exponent 0, a zero or a subnormal, is too small for any channel to reach 1 (R107). -/
theorem fadeChannel_of_exponent_zero (v : Byte) {f : Word32} (h : f.toNat / 2 ^ 23 % 256 = 0) : fadeChannel v f = 0 := by
  cases hsign : factorNegative f
  · have hunits : factorUnits f = f.toNat % 2 ^ 23 := if_pos h
    have hsmall : v.toNat * factorUnits f < 2 ^ 8 * 2 ^ 23 := by
      rw [hunits]
      exact Nat.mul_lt_mul'' v.isLt (Nat.mod_lt _ (by decide))
    apply BitVec.eq_of_toNat_eq
    rw [fadeChannel_toNat_of_nonneg v (by omega) hsign, clampUnits_of_small (by omega)]
    rfl
  · exact fadeChannel_of_negative v (of_decide_eq_true hsign)

/-- A whole channel value is exact in binary32, so rounding leaves it. -/
theorem clampUnits_of_channel {n : Nat} (h : n < 256) : clampUnits (n * 2 ^ 149) = n := by
  have hlog : Nat.log2 (n * 2 ^ 149) - 23 ≤ 149 := by
    rcases Nat.eq_zero_or_pos n with rfl | hn
    · decide
    · have : Nat.log2 (n * 2 ^ 149) < 157 := (Nat.log2_lt (by omega)).mpr (by omega)
      omega
  rw [clampUnits, roundUnits_of_dvd (dvd_mul_of_dvd_right (pow_dvd_pow 2 hlog) n), Nat.mul_div_cancel _ (by positivity)]
  omega

theorem fadeChannel_one (v : Byte) : fadeChannel v 0x3F800000 = v := by
  apply BitVec.eq_of_toNat_eq
  rw [fadeChannel_toNat_of_nonneg v (by decide) (by decide), show factorUnits 0x3F800000 = 2 ^ 149 by decide]
  exact clampUnits_of_channel v.isLt

theorem fadeChannel_channel_zero (f : Word32) : fadeChannel 0 f = 0 := by
  by_cases hspecial : f.toNat / 2 ^ 23 % 256 = 255
  · rw [fadeChannel_of_special 0 hspecial, if_neg fun ⟨_, hne, _⟩ => hne rfl]
  · cases hsign : factorNegative f
    · apply BitVec.eq_of_toNat_eq
      rw [fadeChannel_toNat_of_nonneg 0 (by omega) hsign, show (0 : Byte).toNat = 0 from rfl, Nat.zero_mul]
      rfl
    · exact fadeChannel_of_negative 0 (of_decide_eq_true hsign)

/-- Settles O39: a zero has exponent 0; +∞ and the NaNs have exponent 255; the four examples are evaluated. -/
theorem fadeCornerCases : Obligations.FadeCornerCases := by
  refine ⟨fun v f => ⟨fun hzero => ?_, fadeChannel_of_negative v, fun hone => ?_, fun hinf => ?_, fun hspecial hnan => ?_,
    fadeChannel_of_exponent_zero v, fun hv => ?_⟩, by decide⟩
  · exact fadeChannel_of_exponent_zero v (by omega)
  · rw [hone, fadeChannel_one]
  · rw [hinf, fadeChannel_of_special v (by decide)]
    by_cases hv : v = 0 <;> simp [hv]
  · rw [fadeChannel_of_special v hspecial, if_neg fun ⟨hinf, _⟩ => hnan hinf]
  · rw [hv, fadeChannel_channel_zero]

end Sys2Proof.Machine
end

section
/-!
PROOF. The family of the encoder (spec/41_encoder.md): the bytes of both encodings by arithmetic on the channels, and the recovery of
a colour from its bytes.
-/

namespace Sys2Proof.Machine

/-! ### The bytes -/

/-- `L(c)[k]` by arithmetic on the channel that holds it (R120). -/
theorem logicalBit_iff (c : Color) (k : Nat) :
    logicalBit c k = true ↔ (channel c (k / 8)).toNat / 2 ^ (7 - k % 8) % 2 = 1 := by
  rw [logicalBit, BitVec.getLsbD, Nat.testBit_eq_decide_div_mod_eq, decide_eq_true_iff]

/-- Byte k of the sequence is `E(c)[k]` (R125). -/
theorem encodeColor_getElem? {e : Enc} {k : Nat} (hk : k < bytesPerColor e) (c : Color) :
    (encodeColor e c)[k]? = some (encodedByte e c k) := by
  rw [encodeColor, List.getElem?_map, List.getElem?_range hk, Option.map_some]

theorem nibblePattern_toNat (bit : Bool) : (nibblePattern bit).toNat = if bit then 0xE else 0x8 := by
  cases bit <;> rfl

/-- A byte of the second encoding as a number: the earlier bit's nibble is the upper one (R124). -/
theorem nibblePatterns_toNat (upper lower : Bool) :
    (nibblePattern upper ++ nibblePattern lower).toNat = 16 * (if upper then 0xE else 0x8) + if lower then 0xE else 0x8 := by
  rw [toNat_append_eq_add, nibblePattern_toNat, nibblePattern_toNat, Nat.mul_comm]
  rfl

/-- Settles O43: byte k is the pattern of logical bit k, or of logical bits 2k and 2k + 1, and each logical bit is a bit of its
channel. -/
theorem encoderBytesBitByBit : Obligations.EncoderBytesBitByBit := by
  refine fun c => ⟨encodeColor_length .bytePerBit c, encodeColor_length .nibblePerBit c, fun k hk => ?_, fun k hk => ?_⟩
  · rw [encodeColor_getElem? hk]
    simp only [encodedByte, bytePattern, logicalBit_iff]
    rfl
  · rw [encodeColor_getElem? hk]
    simp only [Option.map_some, encodedByte, nibblePatterns_toNat, logicalBit_iff]
    rfl

/-! ### Bit recovery -/

theorem readPatterns_bytePattern (bit : Bool) : readPatterns .bytePerBit (bytePattern bit) = some [bit] := by
  cases bit <;> rfl

theorem readPatterns_nibblePatterns (upper lower : Bool) :
    readPatterns .nibblePerBit (nibblePattern upper ++ nibblePattern lower) = some [upper, lower] := by
  cases upper <;> cases lower <;> rfl

/-- Where each byte of a sequence reads as some bits, the sequence reads as these bits in order. -/
theorem readBits_map {e : Enc} {byte : Nat → Byte} {bits : Nat → List Bool}
    (h : ∀ k, readPatterns e (byte k) = some (bits k)) (ks : List Nat) :
    readBits e (ks.map byte) = some (ks.flatMap bits) := by
  induction ks with
  | nil => rfl
  | cons k ks ih => rw [List.map_cons, readBits, h, ih, List.flatMap_cons]

/-- The bytes of a colour read as its 24 logical bits, in order (R129). -/
theorem readBits_encodeColor (e : Enc) (c : Color) :
    readBits e (encodeColor e c) = some ((List.range 24).map (logicalBit c)) := by
  rw [encodeColor, List.map_eq_flatMap (f := logicalBit c)]
  cases e with
  | bytePerBit => exact readBits_map (fun k => readPatterns_bytePattern (logicalBit c k)) _
  | nibblePerBit =>
    rw [show 24 = 2 * 12 from rfl, flatMap_range_two_mul]
    exact readBits_map (fun k => readPatterns_nibblePatterns (logicalBit c (2 * k)) (logicalBit c (2 * k + 1))) _

/-- The logical bits are the three channels' bits, each most significant bit first (R120). -/
theorem map_logicalBit (c : Color) :
    (List.range 24).map (logicalBit c) = subBits c.r ++ (subBits c.g ++ subBits c.b) := rfl

theorem subBits_length (v : Byte) : (subBits v).length = 8 := rfl

/-- The first n bits of a byte, most significant first, are the number its n upper bits form. -/
theorem natOfBits_upper_bits (v : Byte) {n : Nat} (hn : n ≤ 8) :
    natOfBits ((List.range n).map fun i => v.getLsbD (7 - i)) = v.toNat / 2 ^ (8 - n) := by
  induction n with
  | zero => exact (Nat.div_eq_of_lt v.isLt).symm
  | succ n ih =>
    have hbit : (v.getLsbD (7 - n)).toNat = v.toNat / 2 ^ (7 - n) % 2 := Nat.toNat_testBit _ _
    have hsplit : v.toNat / 2 ^ (8 - n) = v.toNat / 2 ^ (7 - n) / 2 := by
      rw [Nat.div_div_eq_div_mul, ← Nat.pow_succ, show (7 - n).succ = 8 - n by omega]
    have hstep : natOfBits ((List.range (n + 1)).map fun i => v.getLsbD (7 - i)) =
        2 * natOfBits ((List.range n).map fun i => v.getLsbD (7 - i)) + (v.getLsbD (7 - n)).toNat := by
      simp [natOfBits, List.range_succ]
    rw [hstep, ih (by omega), hbit, hsplit, show 8 - (n + 1) = 7 - n by omega, Nat.div_add_mod]

/-- A byte's bits give the byte back. -/
theorem ofNat_natOfBits_subBits (v : Byte) : BitVec.ofNat 8 (natOfBits (subBits v)) = v := by
  rw [subBits, natOfBits_upper_bits v le_rfl, Nat.sub_self, Nat.pow_zero, Nat.div_one, BitVec.ofNat_toNat, BitVec.setWidth_eq]

/-- Decoding inverts the encoder (R129). -/
theorem recoverColor_encodeColor (e : Enc) (c : Color) : recoverColor e (encodeColor e c) = some c := by
  have hred : (subBits c.r ++ (subBits c.g ++ subBits c.b)).take 8 = subBits c.r := rfl
  have hgreen : ((subBits c.r ++ (subBits c.g ++ subBits c.b)).drop 8).take 8 = subBits c.g := rfl
  have hblue : (subBits c.r ++ (subBits c.g ++ subBits c.b)).drop 16 = subBits c.b := rfl
  rw [recoverColor, readBits_encodeColor, map_logicalBit]
  simp only [List.length_append, subBits_length, hred, hgreen, hblue, ofNat_natOfBits_subBits, if_true]

/-- Settles O44: a left inverse makes the encoder injective. -/
theorem encodedColourIsRecovered : Obligations.EncodedColourIsRecovered := by
  refine fun e => ⟨recoverColor_encodeColor e, fun c d h => Option.some_inj.mp ?_⟩
  rw [← recoverColor_encodeColor e c, h, recoverColor_encodeColor e d]

end Sys2Proof.Machine
end

section
/-!
PROOF. The family of the frame buffer (spec/42_frame_buffer.md): the host's moves and the command handshake, what each command of the
frame buffer writes, what a failing command leaves, and commands that are repeated or follow one another.
-/

namespace Sys2Proof.Machine

open Sys2Proof.Certificates

/-! ### A step and the host's move -/

/-- Settles O11: the cycle's equation for each move of the host. -/
theorem stepRunsTheHostsMove : Obligations.StepRunsTheHostsMove := fun _ =>
  ⟨fun _ _ => cycle_of_accept, fun _ _ => cycle_of_held, fun _ _ => cycle_of_drive, fun _ => cycle_of_wait, cycle_of_nothing,
    fun _ => cycle_of_rst⟩

/-- A cycle with a word offered has rst = 0, so only BUSY decides whether the word is accepted (R140). -/
theorem cmdReadyOut_of_offer {s : State} {w : Word64} {rest : List HostMove} (h : s.host = .offer w :: rest) :
    cmdReadyOut s = !s.status.busy := by
  simp [cmdReadyOut, rstIn, h]

/-- Settles O12: a ready block is not BUSY and runs the word; a BUSY one spends the cycle on the byte-stream port, which neither
reads nor writes the host's moves. -/
theorem commandHandshake : Obligations.CommandHandshake := by
  refine fun s => ⟨rfl, fun w rest hhost => ?_⟩
  rw [cmdReadyOut_of_offer hhost, Bool.not_eq_true', Bool.not_eq_false']
  refine ⟨cycle_of_accept hhost, fun hbusy => ⟨streamCycle s, cycle_of_held hhost hbusy, ?_, ?_⟩⟩
  · obtain ⟨-, -, -, hkept⟩ := transmitterCycle_frame Config.enc Config.gamma s
    exact hkept
  · rw [step, cycle_of_nothing rfl, streamCycle, transmitterCycle_host, streamCycle]

/-! ### What each command writes -/

/-- INIT and FILL have one meaning: all 64 voxels take the colour (R142, R143). -/
theorem completeWrite_allVoxels_writesExactly (c : Color) (s : State) :
    ∃ t, completeWrite allVoxels c s = .next t ∧ WritesExactly (fun _ => True) c s t :=
  ⟨_, rfl, completedWrite_writesExactly (fun _ _ => by simp [allVoxels]) c s⟩

/-- Settles O13: INIT writes the set of all voxels, as FILL does. -/
theorem initSetsEveryVoxel : Obligations.InitSetsEveryVoxel := fun c s =>
  ⟨completeWrite_allVoxels_writesExactly c s, rfl, fun _ => decode_eq_init⟩

/-- Settles O14: FILL writes the set of all voxels. -/
theorem fillSetsEveryVoxel : Obligations.FillSetsEveryVoxel := fun c s =>
  ⟨completeWrite_allVoxels_writesExactly c s, fun _ => decode_eq_fill⟩

/-- An index of 64 or more is rejected (R144, spec/60_exceptions.md R202). -/
theorem exec_set_fails {idx : Word32} (h : 64 ≤ idx.toNat) (c : Color) (s : State) :
    ∃ t, exec (.set idx c) s = .next t ∧ OnlyErrBecomes 1 s t :=
  ⟨_, (execSet_eq idx c s).trans (if_neg (by omega)), rfl⟩

/-- Settles O15: SET writes the set of its one index, behind the range check. -/
theorem setWritesOneVoxelOrFails : Obligations.SetWritesOneVoxelOrFails := by
  refine fun idx c s => ⟨fun h => ⟨_, (execSet_eq idx c s).trans (if_pos h), ?_⟩, fun h => exec_set_fails h c s,
    fun _ => decode_eq_set⟩
  exact completedWrite_writesExactly (fun i _ => by simp [oneVoxel]) c s

/-- What the three fills of an axis have in common: an axis value below 4 writes exactly the voxels with that coordinate, any other
raises IndexOutOfRange and changes nothing else (R145 to R147). -/
def FillsAxis (cmd : Word32 → Color → Instr) (coordinate : Nat → Nat) : Prop :=
  ∀ (arg : Word32) (c : Color) (s : State),
    (arg.toNat < 4 → ∃ t, exec (cmd arg c) s = .next t ∧ WritesExactly (fun i => coordinate i = arg.toNat) c s t) ∧
    (4 ≤ arg.toNat → ∃ t, exec (cmd arg c) s = .next t ∧ OnlyErrBecomes 1 s t)

/-- A command that is `fillAxis` over the sets of one coordinate fills that axis. -/
theorem fillsAxis_of_exec {cmd : Word32 → Color → Instr} {coordinate : Nat → Nat} {group : Nat → VoxelSet}
    (hexec : ∀ arg c s, exec (cmd arg c) s = fillAxis group arg c s)
    (hgroup : ∀ a, ∀ i < 64, group a i = true ↔ coordinate i = a) : FillsAxis cmd coordinate := by
  intro arg c s
  rw [hexec, fillAxis_eq]
  exact ⟨fun h => ⟨_, if_pos h, completedWrite_writesExactly (hgroup arg.toNat) c s⟩, fun h => ⟨_, if_neg (by omega), rfl⟩⟩

theorem fillp_fillsAxis : FillsAxis .fillp (fun i => i % 4) :=
  fillsAxis_of_exec (fun _ _ _ => rfl) fun _ _ _ => panel_iff

theorem fills_fillsAxis : FillsAxis .fills (fun i => i / 4 % 4) :=
  fillsAxis_of_exec (fun _ _ _ => rfl) fun _ _ _ => slice_iff

/-- An index below 64 has no bits above its z coordinate, so `i / 16` is that coordinate. -/
theorem filll_fillsAxis : FillsAxis .filll (fun i => i / 16) :=
  fillsAxis_of_exec (fun _ _ _ => rfl) fun _ i hi => by rw [layer_iff, Nat.mod_eq_of_lt (by omega)]

/-- Settles O16: FILLP fills the x axis. -/
theorem fillpWritesAPanelOrFails : Obligations.FillpWritesAPanelOrFails := by
  intro p c s
  obtain ⟨hwrites, hfails⟩ := fillp_fillsAxis p c s
  exact ⟨hwrites, hfails, fun _ => decode_eq_fillp⟩

/-- Settles O17: FILLS fills the y axis. -/
theorem fillsWritesASliceOrFails : Obligations.FillsWritesASliceOrFails := by
  intro y c s
  obtain ⟨hwrites, hfails⟩ := fills_fillsAxis y c s
  exact ⟨hwrites, hfails, fun _ => decode_eq_fills⟩

/-- Settles O18: FILLL fills the z axis. -/
theorem filllWritesALayerOrFails : Obligations.FilllWritesALayerOrFails := by
  intro l c s
  obtain ⟨hwrites, hfails⟩ := filll_fillsAxis l c s
  exact ⟨hwrites, hfails, fun _ => decode_eq_filll⟩

/-! ### A failing command -/

/-- ARG has 32 bits, so the decoded operand has its value (spec/30_encoding.md R72). -/
theorem ofNat_argOf_toNat (w : Word64) : (BitVec.ofNat 32 (argOf w)).toNat = argOf w := by
  rw [BitVec.toNat_ofNat, argOf, Nat.mod_mod]

/-- A word that calls for an error code other than OK writes that code and nothing else (R150, spec/60_exceptions.md R201). -/
theorem exec_decode_of_failing {w : Word64} (h : codeOf w ≠ 0) (s : State) :
    ∃ t, exec (decode w) s = .next t ∧ OnlyErrBecomes (codeOf w) s t := by
  by_cases hillegal : opOf w = 0 ∨ 8 ≤ opOf w
  · rw [decode_eq_illegal hillegal, codeOf, if_pos hillegal]
    exact exec_illegal_onlyErr _ s
  · by_cases hrange : (opOf w = 3 ∧ 64 ≤ argOf w) ∨ (4 ≤ opOf w ∧ opOf w ≤ 6 ∧ 4 ≤ argOf w)
    · rw [codeOf, if_neg hillegal, if_pos hrange]
      rw [← ofNat_argOf_toNat] at hrange
      obtain ⟨hop, harg⟩ | ⟨hlow, hhigh, harg⟩ := hrange
      · rw [decode_eq_set hop]
        exact exec_set_fails harg _ s
      · obtain hop | hop | hop : opOf w = 4 ∨ opOf w = 5 ∨ opOf w = 6 := by omega
        · rw [decode_eq_fillp hop]
          exact (fillp_fillsAxis _ _ s).2 harg
        · rw [decode_eq_fills hop]
          exact (fills_fillsAxis _ _ s).2 harg
        · rw [decode_eq_filll hop]
          exact (filll_fillsAxis _ _ s).2 harg
    · rw [codeOf, if_neg hillegal, if_neg hrange] at h
      exact absurd rfl h

/-- Settles O21: the failing word leaves BUSY at 0, so the next one is accepted. -/
theorem failedCommandLeavesTheBlockReady : Obligations.FailedCommandLeavesTheBlockReady := by
  intro s w rest hhost hidle _ hcode
  obtain ⟨t, hexec, honly⟩ := exec_decode_of_failing hcode { s with host := rest }
  refine ⟨t, (cycle_of_accept hhost hidle).trans hexec, honly, fun v ⟨more, hnext⟩ => ?_⟩
  have hbusy : t.status.busy = false := by rw [honly, ← hidle]
  have hhost' : t.host = .offer v :: more := by rw [honly, ← hnext]
  exact ⟨⟨⟨more, hhost'⟩, hbusy⟩, by rw [cmdReadyOut_of_offer hhost', hbusy, Bool.not_false]⟩

/-! ### A repeated command -/

/-- Voxels that hold the colour and are defined stay as they are when that colour is written to them. -/
theorem writeVoxels_eq_self {vs : VoxelSet} {c : Color} {s : State}
    (h : ∀ i (_ : i < 64), vs i = true → s.fb[i] = c ∧ s.defined[i] = true) : writeVoxels vs c s = s := by
  have hfb : (writeVoxels vs c s).fb = s.fb := by
    refine Vector.ext fun i hi => ?_
    rw [writeVoxels_voxel vs c s i hi]
    exact ite_eq_right_iff.mpr fun hmem => (h i hi hmem).1.symm
  have hdefined : (writeVoxels vs c s).defined = s.defined := by
    refine Vector.ext fun i hi => ?_
    rw [writeVoxels_defined_bit vs c s i hi]
    exact ite_eq_right_iff.mpr fun hmem => (h i hi hmem).2.symm
  calc writeVoxels vs c s
      = { s with fb := (writeVoxels vs c s).fb, defined := (writeVoxels vs c s).defined } := rfl
    _ = s := by rw [hfb, hdefined]

theorem completeWrite_repeated {vs : VoxelSet} {c : Color} {s t : State} (h : completeWrite vs c s = .next t) :
    completeWrite vs c t = .next t := by
  rw [completeWrite_next h, completeWrite, writeVoxels_eq_self fun i hi hmem => by simp [hmem]]
  rfl

theorem raiseError_repeated {code : ErrCode} {s t : State} (h : raiseError code s = .next t) : raiseError code t = .next t := by
  rw [raiseError_next h]
  rfl

/-- SET and the fills of an axis: the check of ARG comes out the same the second time. -/
theorem checkedWrite_repeated {inRange : Bool} {vs : VoxelSet} {c : Color} {code : ErrCode} {s t : State}
    (h : (if inRange then completeWrite vs c s else raiseError code s) = .next t) :
    (if inRange then completeWrite vs c t else raiseError code t) = .next t := by
  cases inRange with
  | true => exact completeWrite_repeated h
  | false => exact raiseError_repeated h

/-- Settles O22: whether a command writes or fails depends on its operands alone, and doing either twice is doing it once. -/
theorem repeatedCommandChangesNothingMore : Obligations.RepeatedCommandChangesNothingMore := by
  intro i s t hcommand hflush h
  cases i with
  | init c | fill c => exact completeWrite_repeated h
  | set arg c | fillp arg c | fills arg c | filll arg c => exact checkedWrite_repeated h
  | illegal op => exact raiseError_repeated h
  | flush => exact absurd rfl hflush
  | gamma v | wheel p | fade rgb factor | encode rgb => cases hcommand

/-! ### The four commands of an axis -/

theorem runAll_cons {i : Instr} {s t : State} (h : exec i s = .next t) (cmds : List Instr) :
    runAll (i :: cmds) s = runAll cmds t := by
  simp only [runAll, List.foldl_cons, h]

/-- Fills of one axis in one colour for each value: a voxel whose coordinate is among the values is defined and holds the colour of
that coordinate, in whatever order and however often the values come, and every other voxel is as before. -/
theorem runAll_fillsAxis {cmd : Word32 → Color → Instr} {coordinate : Nat → Nat} (haxis : FillsAxis cmd coordinate)
    (col : Nat → Color) (values : List Nat) (hvalues : ∀ a ∈ values, a < 4) (s : State) :
    ∃ t, runAll (values.map fun a => cmd (BitVec.ofNat 32 a) (col a)) s = .next t ∧ ∀ i (h : i < 64),
      (coordinate i ∈ values → t.fb[i] = col (coordinate i) ∧ t.defined[i] = true) ∧
      (coordinate i ∉ values → t.fb[i] = s.fb[i] ∧ t.defined[i] = s.defined[i]) := by
  induction values generalizing s with
  | nil => exact ⟨s, rfl, fun i h => by simp⟩
  | cons a values ih =>
    obtain ⟨ha, hrest⟩ := List.forall_mem_cons.mp hvalues
    have harg : (BitVec.ofNat 32 a).toNat = a := by rw [BitVec.toNat_ofNat]; omega
    obtain ⟨u, hexec, hwritten, -⟩ := (haxis (BitVec.ofNat 32 a) (col a) s).1 (by rwa [harg])
    obtain ⟨t, hrun, hvoxels⟩ := ih hrest u
    refine ⟨t, (runAll_cons hexec _).trans hrun, fun i hi => ?_⟩
    obtain ⟨hin, hout⟩ := hvoxels i hi
    obtain ⟨hnow, hkept⟩ := hwritten i hi
    rw [harg] at hnow hkept
    rw [List.mem_cons]
    by_cases hlater : coordinate i ∈ values
    · exact ⟨fun _ => hin hlater, fun hno => absurd (.inr hlater) hno⟩
    · rw [(hout hlater).1, (hout hlater).2]
      refine ⟨fun hmem => ?_, fun hno => hkept fun heq => hno (.inl heq)⟩
      have heq : coordinate i = a := hmem.resolve_right hlater
      rw [heq]
      exact hnow heq

/-- Where the values are 0 to 3 in any order, no voxel is left out. -/
theorem runAll_fillsAxis_all {cmd : Word32 → Color → Instr} {coordinate : Nat → Nat} (haxis : FillsAxis cmd coordinate)
    (hcoordinate : ∀ i < 64, coordinate i < 4) {order : List Nat} (hperm : order.Perm [0, 1, 2, 3]) (col : Nat → Color)
    (s : State) :
    ∃ t, runAll (order.map fun a => cmd (BitVec.ofNat 32 a) (col a)) s = .next t ∧
      ∀ i (h : i < 64), t.fb[i] = col (coordinate i) ∧ t.defined[i] = true := by
  have hmem (a : Nat) : a ∈ order ↔ a < 4 := by
    rw [hperm.mem_iff, ← show List.range 4 = [0, 1, 2, 3] from rfl, List.mem_range]
  obtain ⟨t, hrun, hvoxels⟩ := runAll_fillsAxis haxis col order (fun a => (hmem a).mp) s
  exact ⟨t, hrun, fun i hi => (hvoxels i hi).1 ((hmem _).mpr (hcoordinate i hi))⟩

/-- Settles O23: each of the three commands fills its axis, and each coordinate of a voxel is below 4. -/
theorem fourPanelsSlicesOrLayersInAnyOrder : Obligations.FourPanelsSlicesOrLayersInAnyOrder := fun _ col s hperm =>
  ⟨runAll_fillsAxis_all fillp_fillsAxis (by omega) hperm col s, runAll_fillsAxis_all fills_fillsAxis (by omega) hperm col s,
    runAll_fillsAxis_all filll_fillsAxis (by omega) hperm col s⟩

end Sys2Proof.Machine
end

section
/-!
PROOF. The family of the serializer (spec/43_serializer.md): the frame byte sequence, the acceptance of FLUSH, a byte's transfer and
the last one, a stalled transmitter, a whole frame, and reset in mid-frame.
-/

namespace Sys2Proof.Machine

open Sys2Proof.Certificates

/-! ### The frame byte sequence -/

theorem frame_length (e : Enc) (g : GammaTable) (fb : Vector Color 64) : (frame e g fb).length = frameLength e := by
  simp [frame]

theorem frame_getElem? {e : Enc} {j : Nat} (hj : j < frameLength e) (g : GammaTable) (fb : Vector Color 64) :
    (frame e g fb)[j]? = some (frameByte e g fb j) := by
  rw [frame, List.getElem?_map, List.getElem?_range hj, Option.map_some]

/-- Byte i·NB + k of the frame is byte k of the encoded, gamma-corrected voxel i (R172). -/
theorem frameByte_of_voxel {e : Enc} {i k : Nat} (hi : i < 64) (hk : k < bytesPerColor e) (g : GammaTable)
    (fb : Vector Color 64) : frameByte e g fb (i * bytesPerColor e + k) = encodedByte e (gammaColor g fb[i]) k := by
  have hvoxel : (i * bytesPerColor e + k) / bytesPerColor e = i := by
    rw [Nat.mul_comm, Nat.mul_add_div (by omega), Nat.div_eq_of_lt hk, Nat.add_zero]
  rw [frameByte, hvoxel, Nat.mul_add_mod', Nat.mod_eq_of_lt hk, voxelAt_eq fb i hi]

/-- The place of byte k of voxel i is inside the frame. -/
theorem voxelByte_lt_frameLength {e : Enc} {i k : Nat} (hi : i < 64) (hk : k < bytesPerColor e) :
    i * bytesPerColor e + k < frameLength e := by
  have := Nat.mul_le_mul_right (bytesPerColor e) (show i + 1 ≤ 64 from hi)
  rw [Nat.add_one_mul] at this
  unfold frameLength
  omega

/-- Settles O47: the place i·NB + k is inside the frame, and its byte is that of voxel i. -/
theorem frameByteSequence : Obligations.FrameByteSequence := by
  refine fun e g fb => ⟨frame_length e g fb, frame_length _ g fb, frame_length _ g fb, fun i k hi hk => ?_⟩
  rw [frame_getElem? (voxelByte_lt_frameLength hi hk), frameByte_of_voxel hi hk, encodeColor_getElem? hk]

/-- Going through m·n numbers one by one is going through m rows of n. -/
theorem map_range_mul {α : Type} (f : Nat → α) (m n : Nat) :
    (List.range (m * n)).map f = (List.range m).flatMap fun i => (List.range n).map fun k => f (i * n + k) := by
  induction m with
  | zero => simp
  | succ m ih => simp [Nat.add_one_mul, List.range_add, List.range_succ, ih]

/-- The frame as the sequential program sends it, voxel by voxel (R184). -/
theorem frame_eq_flatMap (e : Enc) (g : GammaTable) (fb : Vector Color 64) :
    frame e g fb = (List.finRange 64).flatMap fun i => encodeColor e (gammaColor g fb[i]) := by
  rw [frame, frameLength, map_range_mul, ← List.map_coe_finRange_eq_range (n := 64), List.flatMap_map]
  refine List.flatMap_congr fun i _ => List.map_congr_left fun k hk => ?_
  exact frameByte_of_voxel i.isLt (List.mem_range.mp hk) g fb

/-- What is left of the frame from place j on is byte j and what is left after it. -/
theorem frame_drop {e : Enc} {j : Nat} (hj : j < frameLength e) (g : GammaTable) (fb : Vector Color 64) :
    (frame e g fb).drop j = frameByte e g fb j :: (frame e g fb).drop (j + 1) := by
  rw [List.drop_eq_getElem_cons (by rwa [frame_length])]
  simp [frame]

/-! ### The acceptance of FLUSH -/

/-- Settles O46: with every voxel written a frame begins at byte 0 of voxel 0, and with one unwritten FLUSH faults. -/
theorem flushIsAcceptedOrFaults : Obligations.FlushIsAcceptedOrFaults := by
  intro s
  rcases acceptFlush_cases Config.enc Config.gamma s with ⟨hall, heq⟩ | ⟨hsome, heq⟩
  · have hdef := (allDefined_iff s).mp hall
    refine ⟨fun _ => ⟨_, heq, rfl, rfl, rfl, rfl, rfl, ?_, rfl, rfl, rfl, rfl, rfl, rfl, rfl⟩, fun ⟨i, hi⟩ => ?_⟩
    · have hpos := (bytesPerColor_bounds Config.enc).1
      have hfirst := frameByte_of_voxel (i := 0) (by omega) hpos Config.gamma s.fb
      rw [Nat.zero_mul] at hfirst
      rw [List.head?_eq_getElem?, encodeColor_getElem? hpos, startFrame_txData, hfirst]
    · simp [hdef i] at hi
  · refine ⟨fun hdef => ?_, fun _ => heq⟩
    rw [(allDefined_iff s).mpr hdef] at hsome
    cases hsome

/-! ### The byte-stream port's part of a cycle -/

theorem streamCycle_of_no_byte {s : State} (hvalid : s.txValid = false) : streamCycle s = s := by
  simp [streamCycle, transmitterCycle, hvalid]

theorem streamCycle_of_not_ready {s : State} (hvalid : s.txValid = true) (hready : txReadyIn s = false) :
    streamCycle s = endTxAnswer s := by
  simp [streamCycle, transmitterCycle, hvalid, hready]

theorem streamCycle_of_ready {s : State} (hvalid : s.txValid = true) (hready : txReadyIn s = true) :
    streamCycle s = transferByte Config.enc Config.gamma (endTxAnswer s) := by
  simp [streamCycle, transmitterCycle, hvalid, hready]

theorem streamCycle_of_next_byte {s : State} (hvalid : s.txValid = true) (hready : txReadyIn s = true)
    (hlast : bytePosition Config.enc s + 1 ≠ frameLength Config.enc) :
    streamCycle s = loadTxData (offeredByte Config.enc Config.gamma s (bytePosition Config.enc s + 1))
      (advanceCounters Config.enc (sendByte (endTxAnswer s))) :=
  (streamCycle_of_ready hvalid hready).trans (if_neg hlast)

theorem streamCycle_of_last_byte {s : State} (hvalid : s.txValid = true) (hready : txReadyIn s = true)
    (hlast : bytePosition Config.enc s + 1 = frameLength Config.enc) :
    streamCycle s = completeFlush (sendByte (endTxAnswer s)) :=
  (streamCycle_of_ready hvalid hready).trans (if_pos hlast)

theorem txReadyIn_of_cons {s : State} {answer : Bool} {answers : List Bool} (h : s.txReady = answer :: answers) :
    txReadyIn s = answer := by
  rw [txReadyIn, h, List.headD_cons]

/-- Before the frame's last byte, a transfer names the next place in the frame (R175). -/
theorem bytePosition_of_next_byte {s : State} (hvalid : s.txValid = true) (hready : txReadyIn s = true)
    (hbyte : s.serByte.toNat < bytesPerColor Config.enc) (hlast : bytePosition Config.enc s + 1 ≠ frameLength Config.enc) :
    bytePosition Config.enc (streamCycle s) = bytePosition Config.enc s + 1 := by
  rw [streamCycle_of_next_byte hvalid hready hlast]
  exact bytePosition_advanceCounters (s := sendByte (endTxAnswer s)) hbyte hlast

/-- Settles O48: the transfer advances the counters by one place, and the byte it loads is the frame's byte there. -/
theorem transferOffersTheNextByte : Obligations.TransferOffersTheNextByte := by
  intro s answers hhost hvalid hanswers hbyte hmore
  have hready := txReadyIn_of_cons hanswers
  have hlast := Nat.ne_of_lt hmore
  refine ⟨streamCycle s, cycle_of_nothing hhost, ?_⟩
  rw [bytePosition_of_next_byte hvalid hready hbyte hlast, frame_getElem? hmore, streamCycle_of_next_byte hvalid hready hlast,
    loadTxData_txData, offeredByte, if_pos hmore]
  exact ⟨rfl, rfl, advanceCounters_serByte_lt (s := sendByte (endTxAnswer s)) hbyte, rfl, rfl, hvalid, rfl, rfl, rfl, rfl, hhost,
    congrArg List.tail hanswers, rfl⟩

/-- Settles O49: the transfer of the byte at the frame's last place is `complete_FLUSH`. -/
theorem lastTransferCompletesFlush : Obligations.LastTransferCompletesFlush := by
  intro s answers hhost hvalid hanswers hlast
  refine ⟨streamCycle s, cycle_of_nothing hhost, ?_⟩
  rw [streamCycle_of_last_byte hvalid (txReadyIn_of_cons hanswers) hlast]
  refine ⟨rfl, rfl, rfl, rfl, rfl, rfl, ?_, rfl, rfl, rfl, hhost, congrArg List.tail hanswers⟩
  simp [cmdReadyOut, rstIn, hhost]

/-! ### A host that waits for the end of the frame -/

/-- The host makes no move, or offers a word: what it does then stands while the block is BUSY (spec/42_frame_buffer.md R140). -/
def HostHolds (s : State) : Prop := s.host = [] ∨ ∃ w rest, s.host = .offer w :: rest

/-- In a BUSY block such a host leaves the cycle to the byte-stream port. -/
theorem step_of_hostHolds {s : State} (hbusy : s.status.busy = true) (hhost : HostHolds s) : step s = .next (streamCycle s) := by
  rcases hhost with hhost | ⟨w, rest, hhost⟩
  · exact cycle_of_nothing hhost
  · exact cycle_of_held hhost hbusy

/-- A transmitter that is not ready, k times: only its answers are used up (R178). -/
theorem run_of_stall {s : State} (hbusy : s.status.busy = true) (hvalid : s.txValid = true) (hhost : HostHolds s) (k n : Nat) :
    core.run k { s with txReady := List.replicate n false } = .next { s with txReady := List.replicate (n - k) false } := by
  induction k generalizing n with
  | zero => rfl
  | succ k ih =>
    have hready : txReadyIn { s with txReady := List.replicate n false } = false := by cases n <;> rfl
    have hcycle := streamCycle_of_not_ready (s := { s with txReady := List.replicate n false }) hvalid hready
    rw [endTxAnswer, List.tail_replicate] at hcycle
    have hstep := step_of_hostHolds (s := { s with txReady := List.replicate n false }) hbusy hhost
    rw [run_of_next k (hstep.trans (congrArg _ hcycle)), ih, Nat.sub_sub, Nat.add_comm 1 k]

/-- Settles O50: inside a frame a byte is offered, so the cycles are those of a stall, and a cycle with rst = 1 clears BUSY. -/
theorem stalledFlushWaitsForEver : Obligations.StalledFlushWaitsForEver := by
  intro s k n w hinv hbusy hanswers hhost
  obtain ⟨-, -, hframe⟩ := hinv
  obtain ⟨hvalid, -⟩ := hframe hbusy
  have hholds : HostHolds s := hhost.symm.imp_right fun h => ⟨w, [], h⟩
  have hrun := run_of_stall hbusy hvalid hholds k n
  rw [← hanswers] at hrun
  exact ⟨hrun, _, cycle_of_rst rfl, rfl⟩

/-! ### A whole frame -/

/-- From s, inside a frame, to t: what was left of the frame has been transferred and FLUSH has completed; FB, DEF, the ports'
inputs and the host's moves are as they were, and `more` answers of the transmitter are left. -/
def CompletesFrame (more : List Bool) (s t : State) : Prop :=
  t.transferred = s.transferred ++ (frame Config.enc Config.gamma s.fb).drop (bytePosition Config.enc s) ∧
    t.status = ⟨false, 0⟩ ∧ t.txValid = false ∧ t.serVox = 0 ∧ t.serByte = 0 ∧ t.fb = s.fb ∧ t.defined = s.defined ∧
    t.pins = s.pins ∧ t.host = s.host ∧ t.txReady = more

/-- The last byte's transfer completes the frame (R177). -/
theorem streamCycle_completesFrame {s : State} {more : List Bool} (hframe : FrameShape s) (hanswers : s.txReady = true :: more)
    (hlast : bytePosition Config.enc s + 1 = frameLength Config.enc) : CompletesFrame more s (streamCycle s) := by
  obtain ⟨hvalid, -, hdata, -⟩ := hframe
  rw [streamCycle_of_last_byte hvalid (txReadyIn_of_cons hanswers) hlast]
  refine ⟨?_, rfl, rfl, rfl, rfl, rfl, rfl, rfl, rfl, congrArg List.tail hanswers⟩
  rw [frame_drop (by omega), hlast, ← frame_length _ Config.gamma s.fb, List.drop_length, ← hdata]
  rfl

/-- A frame that is completed from the state after a transfer is completed from the state before it: the byte transferred is the
next one of what was left (R174, R175). -/
theorem CompletesFrame.of_next_byte {s t : State} {more : List Bool} (hframe : FrameShape s) (hready : txReadyIn s = true)
    (hlast : bytePosition Config.enc s + 1 ≠ frameLength Config.enc) (h : CompletesFrame more (streamCycle s) t) :
    CompletesFrame more s t := by
  obtain ⟨hvalid, hbyte, hdata, -⟩ := hframe
  rw [CompletesFrame, bytePosition_of_next_byte hvalid hready hbyte hlast, streamCycle_of_next_byte hvalid hready hlast] at h
  obtain ⟨hsent, hrest⟩ := h
  refine ⟨hsent.trans ?_, hrest⟩
  rw [frame_drop (bytePosition_lt hbyte), ← hdata, List.append_cons]
  rfl

/-- From any place inside a frame, a transmitter that is ready once for each byte left, whatever pauses it makes, gets the rest of
the frame, and FLUSH completes with the last byte. -/
theorem run_completesFrame {answers more : List Bool} {s : State} (hframe : FrameShape s) (hbusy : s.status.busy = true)
    (hhost : HostHolds s) (hanswers : s.txReady = answers ++ true :: more)
    (hcount : bytePosition Config.enc s + answers.count true + 1 = frameLength Config.enc) :
    ∃ t, core.run (answers.length + 1) s = .next t ∧ CompletesFrame more s t := by
  induction answers generalizing s with
  | nil => exact ⟨_, run_of_next 0 (step_of_hostHolds hbusy hhost), streamCycle_completesFrame hframe hanswers hcount⟩
  | cons answer answers ih =>
    have ⟨hvalid, hbyte, _⟩ := hframe
    have hready := txReadyIn_of_cons hanswers
    rw [List.length_cons, run_of_next _ (step_of_hostHolds hbusy hhost)]
    cases answer with
    | false =>
      rw [List.count_cons_of_ne (by decide)] at hcount
      rw [streamCycle_of_not_ready hvalid hready]
      exact ih (s := endTxAnswer s) hframe hbusy hhost (congrArg List.tail hanswers) hcount
    | true =>
      rw [List.count_cons_self] at hcount
      have hlast : bytePosition Config.enc s + 1 ≠ frameLength Config.enc := by omega
      have hnext := streamCycle_of_next_byte hvalid hready hlast
      have hpos := bytePosition_of_next_byte hvalid hready hbyte hlast
      obtain ⟨t, hrun, hdone⟩ := ih (s := streamCycle s) (hnext ▸ transfer_keeps_frameShape hframe hlast)
        (hnext ▸ hbusy) (hnext ▸ hhost) (hnext ▸ congrArg List.tail hanswers) (by rw [hpos]; omega)
      exact ⟨t, hrun, hdone.of_next_byte hframe hready hlast⟩

/-- Settles O51: the acceptance begins the frame at its byte 0, the run through the answers completes it, and the frame is the
sequential program's bytes. -/
theorem flushTransfersExactlyTheFrame : Obligations.FlushTransfersExactlyTheFrame := by
  intro s w later answers more hinv hhost hidle hop hdef hlater hanswers hcount
  obtain ⟨herr, -⟩ := hinv
  obtain ⟨-, -, hframe⟩ := startFrame_inv (s := { s with host := later }) herr hdef
  have hstep : step s = .next (startFrame Config.enc Config.gamma { s with host := later }) := by
    rw [step, cycle_of_accept hhost hidle, decode_eq_flush hop]
    exact if_pos ((allDefined_iff s).mpr hdef)
  obtain ⟨t, hrun, hsent, hstatus, hvalid, hvox, hbyte, hkept⟩ :=
    run_completesFrame (hframe rfl) rfl hlater hanswers (by simpa [bytePosition] using hcount)
  refine ⟨t, (run_of_next _ hstep).trans hrun, hsent.trans ?_, by rw [hstatus], by rw [hstatus], hvalid, hvox, hbyte, hkept⟩
  rw [← frame_eq_flatMap]
  simp [bytePosition]

/-! ### Reset in mid-frame -/

/-- A block that offers no byte, with a host that makes no move, stays as it is. -/
theorem run_of_quiet {s : State} (hhost : s.host = []) (hvalid : s.txValid = false) (k : Nat) : core.run k s = .next s := by
  have hstep : step s = .next s := (cycle_of_nothing hhost).trans (congrArg _ (streamCycle_of_no_byte hvalid))
  induction k with
  | zero => rfl
  | succ k ih => rw [run_of_next k hstep, ih]

/-- Settles O3: the reset cycle leaves a block that offers no byte and stays so, and adds nothing to the bytes transferred, the
newest of which are the frame's up to the place the counters named. -/
theorem resetEndsAFrameWithAPrefix : Obligations.ResetEndsAFrameWithAPrefix := by
  intro s k ⟨_, _, hframe⟩ hbusy hhost
  obtain ⟨-, -, -, -, hsent⟩ := hframe hbusy
  have hrun (k : Nat) := (run_of_next k (cycle_of_rst hhost)).trans (run_of_quiet rfl rfl k)
  exact ⟨_, hrun k, hrun 0, rfl, rfl, rfl, rfl, rfl, rfl, fun i hi => by simp, hsent⟩

end Sys2Proof.Machine
end

section
/-!
PROOF. The family of the exceptions (spec/60_exceptions.md): the code an accepted word ends with, the idle block, the one model fault,
and the runs it cannot stop.
-/

namespace Sys2Proof.Machine

open Sys2Proof.Certificates

/-! ### The error code of an accepted word -/

/-- A word calls for OK where its OP is in the opcode map and its ARG is in the command's range (R202 to R204). -/
theorem codeOf_eq_zero_iff {w : Word64} :
    codeOf w = 0 ↔ 1 ≤ opOf w ∧ opOf w ≤ 7 ∧ (opOf w = 3 → argOf w < 64) ∧ (4 ≤ opOf w → opOf w ≤ 6 → argOf w < 4) := by
  unfold codeOf
  split_ifs with hillegal hrange
  · exact iff_of_false (by decide) (by omega)
  · exact iff_of_false (by decide) (by omega)
  · exact iff_of_true rfl (by omega)

/-- INIT and FILL write every voxel, and ERR is OK (spec/42_frame_buffer.md R142, R143). -/
theorem exec_decode_of_init_or_fill {w : Word64} (hop : opOf w = 1 ∨ opOf w = 2) (s : State) :
    exec (decode w) s = .next (setErr .ok (writeVoxels allVoxels (colOf w) s)) := by
  rcases hop with hop | hop
  · rw [decode_eq_init hop]
    rfl
  · rw [decode_eq_fill hop]
    rfl

/-- A word that calls for OK and is no FLUSH writes its voxels and the code OK (spec/42_frame_buffer.md R141). -/
theorem exec_decode_of_completing {w : Word64} (hop : opOf w ≠ 7) (hcode : codeOf w = 0) (s : State) :
    ∃ vs c, exec (decode w) s = .next (setErr .ok (writeVoxels vs c s)) := by
  obtain ⟨hlow, hhigh, hset, haxis⟩ := codeOf_eq_zero_iff.mp hcode
  rw [← ofNat_argOf_toNat] at hset haxis
  obtain h | h | h | h | h : (opOf w = 1 ∨ opOf w = 2) ∨ opOf w = 3 ∨ opOf w = 4 ∨ opOf w = 5 ∨ opOf w = 6 := by omega
  · exact ⟨_, _, exec_decode_of_init_or_fill h s⟩
  · rw [decode_eq_set h]
    exact ⟨_, _, (execSet_eq _ _ s).trans (if_pos (hset h))⟩
  · rw [decode_eq_fillp h]
    exact ⟨_, _, (fillAxis_eq panel _ _ s).trans (if_pos (haxis (by omega) (by omega)))⟩
  · rw [decode_eq_fills h]
    exact ⟨_, _, (fillAxis_eq slice _ _ s).trans (if_pos (haxis (by omega) (by omega)))⟩
  · rw [decode_eq_filll h]
    exact ⟨_, _, (fillAxis_eq layer _ _ s).trans (if_pos (haxis (by omega) (by omega)))⟩

/-- A word that is no FLUSH completes at once: ERR takes the code it calls for, and BUSY stays as it is (R200, R201). -/
theorem exec_decode_status {w : Word64} (hop : opOf w ≠ 7) (s : State) :
    ∃ t, exec (decode w) s = .next t ∧ t.status = ⟨s.status.busy, codeOf w⟩ := by
  by_cases hcode : codeOf w = 0
  · obtain ⟨vs, c, hexec⟩ := exec_decode_of_completing hop hcode s
    exact ⟨_, hexec, by rw [hcode]; rfl⟩
  · obtain ⟨t, hexec, honly⟩ := exec_decode_of_failing hcode s
    exact ⟨t, hexec, by rw [honly]⟩

/-- Settles O20: a word that is no FLUSH leaves the STATUS its code calls for, and the acceptance of a FLUSH writes no code. -/
theorem acceptedCommandEndsWithItsCode : Obligations.AcceptedCommandEndsWithItsCode := by
  intro s w hacc
  refine ⟨fun hop => ?_, fun hop t hstep => step_err_of_flush hstep hacc hop⟩
  obtain ⟨t, hexec, hstatus⟩ := exec_decode_status hop (endHostMove s)
  have ⟨_, hidle⟩ := hacc
  exact ⟨t, (step_of_accepts hacc).trans hexec, by rw [hstatus], by rw [hstatus]; exact hidle⟩

/-! ### The idle block -/

/-- In a block that offers no byte, a cycle in which the host makes no move uses up its next wait, if there is one. -/
theorem step_of_waits {s : State} (hvalid : s.txValid = false) (n : Nat) :
    step { s with host := List.replicate n .wait } = .next { s with host := List.replicate (n - 1) .wait } := by
  have hquiet (m : Nat) := streamCycle_of_no_byte (s := { s with host := List.replicate m .wait }) hvalid
  cases n with
  | zero => exact (cycle_of_nothing rfl).trans (congrArg _ (hquiet 0))
  | succ n => exact (cycle_of_wait rfl).trans (congrArg _ (hquiet n))

/-- However many such cycles pass, only the host's waits are used up. -/
theorem run_of_waits {s : State} (hvalid : s.txValid = false) (k n : Nat) :
    core.run k { s with host := List.replicate n .wait } = .next { s with host := List.replicate (n - k) .wait } := by
  induction k generalizing n with
  | zero => rfl
  | succ k ih => rw [run_of_next k (step_of_waits hvalid n), ih, Nat.sub_sub, Nat.add_comm 1 k]

/-- Settles O30: by the invariant a block that is not BUSY offers no byte, so a run in which the host makes no move uses up its
waits only. -/
theorem idleBlockKeepsItsState : Obligations.IdleBlockKeepsItsState := by
  intro s k n ⟨_, hidle, _⟩ hbusy hhost
  obtain ⟨hvalid, -⟩ := hidle hbusy
  rw [← run_of_waits hvalid k n, ← hhost]

/-! ### The model fault -/

/-- A FLUSH accepted while some voxel is unwritten is the model fault (R206). -/
theorem step_fault_of_flush {s : State} {w : Word64} (hacc : Accepts s w) (hop : opOf w = 7)
    (hunwritten : ∃ i : Fin 64, s.defined[i] = false) : step s = .fault .uninitialisedVoxel := by
  obtain ⟨-, hfault⟩ := flushIsAcceptedOrFaults (endHostMove s)
  rw [step_of_accepts hacc, decode_eq_flush hop]
  exact hfault hunwritten

/-- A step answers a next state, unless it accepts a FLUSH while some voxel is unwritten, which is the model fault. -/
theorem step_next_or_flush_fault (s : State) :
    (∃ t, step s = .next t) ∨
    (step s = .fault .uninitialisedVoxel ∧ ∃ w, Accepts s w ∧ opOf w = 7 ∧ ∃ i : Fin 64, s.defined[i] = false) := by
  rcases step_cases s with ⟨-, heq⟩ | ⟨w, hacc, heq⟩ | ⟨-, moves, pins, heq⟩
  · exact .inl ⟨_, heq⟩
  · by_cases hop : opOf w = 7
    · by_cases hunwritten : ∃ i : Fin 64, s.defined[i] = false
      · exact .inr ⟨step_fault_of_flush hacc hop hunwritten, w, hacc, hop, hunwritten⟩
      · obtain ⟨haccepted, -⟩ := flushIsAcceptedOrFaults (endHostMove s)
        obtain ⟨t, hexec, -⟩ := haccepted (by simpa using hunwritten)
        rw [decode_eq_flush hop] at heq
        exact .inl ⟨t, heq.trans hexec⟩
    · obtain ⟨t, hexec, -⟩ := exec_decode_status hop (endHostMove s)
      exact .inl ⟨t, heq.trans hexec⟩
  · exact .inl ⟨_, heq⟩

/-- Settles O32: a step that answers no next state is that of an unwritten FLUSH, which faults, and a run stops at its first fault. -/
theorem onlyAnUnwrittenFlushFaults : Obligations.OnlyAnUnwrittenFlushFaults := by
  refine fun s => ⟨fun r => ⟨fun hr => ?_, ?_⟩, fun r hr => ?_, fun r k => run_of_fault k⟩
  · rcases step_next_or_flush_fault s with ⟨t, heq⟩ | ⟨heq, hflush⟩ <;> cases heq.symm.trans hr
    exact ⟨rfl, hflush⟩
  · rintro ⟨rfl, w, hacc, hop, hunwritten⟩
    exact step_fault_of_flush hacc hop hunwritten
  · rcases step_next_or_flush_fault s with ⟨t, heq⟩ | ⟨heq, -⟩ <;> cases heq.symm.trans hr

/-- Settles O56: the cycle with rst = 1 leaves every DEF bit 0, voxel 0's among them, and BUSY 0, so the FLUSH is accepted and
faults. -/
theorem flushRightAfterResetFaults : Obligations.FlushRightAfterResetFaults := by
  intro s w rest hhost hop
  have hfault : step (applyReset { s with host := .offer w :: rest }) = .fault .uninitialisedVoxel :=
    step_fault_of_flush ⟨⟨rest, rfl⟩, rfl⟩ hop ⟨0, by simp⟩
  exact (run_of_next 1 (cycle_of_rst hhost)).trans (run_of_fault 0 hfault)

/-! ### Runs that never stop -/

theorem exec_decode_host {w : Word64} {s t : State} (h : exec (decode w) s = .next t) : t.host = s.host := by
  rcases exec_decode_next h with ⟨-, -, vs, c, rfl⟩ | ⟨-, code, rfl⟩ | ⟨-, -, rfl⟩ <;> rfl

theorem streamCycle_host (s : State) : (streamCycle s).host = s.host := by
  obtain ⟨-, -, -, hhost⟩ := transmitterCycle_frame Config.enc Config.gamma s
  exact hhost

/-- A step uses up the host's next move or none: it adds no move and changes no later one (spec/70_reset_and_hazards.md R248). -/
theorem step_host_suffix {s t : State} (hstep : step s = .next t) : t.host <:+ s.host := by
  have of_next {u : State} (hu : step s = .next u) (hsuffix : u.host <:+ s.host) : t.host <:+ s.host := by
    cases hu.symm.trans hstep
    exact hsuffix
  rcases hhost : s.host with _ | ⟨_ | w | p | _, rest⟩ <;> rw [hhost] at of_next
  case nil => exact of_next (cycle_of_nothing hhost) (by rw [streamCycle_host, hhost])
  case cons.wait => exact of_next (cycle_of_wait hhost) (by rw [streamCycle_host]; exact List.suffix_cons _ _)
  case cons.offer =>
    cases hbusy : s.status.busy with
    | false =>
      rw [exec_decode_host ((cycle_of_accept hhost hbusy).symm.trans hstep)]
      exact List.suffix_cons _ _
    | true => exact of_next (cycle_of_held hhost hbusy) (by rw [streamCycle_host, hhost])
  case cons.drive =>
    obtain ⟨pins, hport⟩ := exec_portInstr p (streamCycle { s with host := rest })
    exact of_next ((cycle_of_drive hhost).trans hport)
      (by rw [drivePins_host, streamCycle_host]; exact List.suffix_cons _ _)
  case cons.rst => exact of_next (cycle_of_rst hhost) (List.suffix_cons _ _)

/-- A host that has no reset among its moves asserts none in this cycle. -/
theorem rstIn_of_no_rst {s : State} (h : ∀ m ∈ s.host, m ≠ .rst) : rstIn s = false := by
  unfold rstIn
  split
  next rest hhost => exact absurd rfl (h .rst (by simp [hhost]))
  next => rfl

/-- Where every voxel is written and the host has no reset among its moves, no run stops: both hold again after each step. -/
theorem safeFor_of_fully_written {s : State} (hdef : ∀ i : Fin 64, s.defined[i] = true) (hhost : ∀ m ∈ s.host, m ≠ .rst)
    (k : Nat) : SafeFor k s := by
  induction k generalizing s with
  | zero => exact ⟨s, rfl⟩
  | succ k ih =>
    obtain ⟨t, hstep, hdef'⟩ := fullyWrittenBlockGoesOn s hdef (rstIn_of_no_rst hhost)
    rw [SafeFor, run_of_next k hstep]
    exact ih hdef' fun m hm => hhost m ((step_host_suffix hstep).subset hm)

/-- Settles O55: the first step writes every voxel, and from there on no run stops. -/
theorem runThatBeginsWithInitNeverStops : Obligations.RunThatBeginsWithInitNeverStops := by
  intro s v rest k hidle hhost hop hrest
  cases k with
  | zero => exact ⟨s, rfl⟩
  | succ k =>
    have hexec := exec_decode_of_init_or_fill hop { s with host := rest }
    rw [SafeFor, run_of_next k ((cycle_of_accept hhost hidle).trans hexec)]
    exact safeFor_of_fully_written (fun i => by simp [allVoxels]) hrest k

end Sys2Proof.Machine
end

section
/-!
PROOF. The family of reset and hazards (spec/70_reset_and_hazards.md): a FLUSH right after INIT or FILL, and the cycle with rst = 1.
-/

namespace Sys2Proof.Machine

open Sys2Proof.Certificates

/-! ### INIT or FILL, then FLUSH -/

/-- An accepted FLUSH that finds every voxel written offers the first byte of voxel 0 (spec/43_serializer.md R171). -/
theorem step_of_flush_of_written {s : State} {w : Word64} (hacc : Accepts s w) (hop : opOf w = 7)
    (hwritten : ∀ i : Fin 64, s.defined[i] = true) :
    ∃ t, step s = .next t ∧ t.status.busy = true ∧ t.txValid = true ∧
      (encodeColor Config.enc (gammaColor Config.gamma s.fb[0])).head? = some t.txData := by
  obtain ⟨haccepted, -⟩ := flushIsAcceptedOrFaults (endHostMove s)
  obtain ⟨t, hexec, hbusy, -, -, -, hvalid, hbyte, -⟩ := haccepted hwritten
  rw [← decode_eq_flush hop] at hexec
  exact ⟨t, (step_of_accepts hacc).trans hexec, hbusy, hvalid, hbyte⟩

/-- Settles O54: the first step leaves every voxel written and voxel 0 in the new colour, and the second begins the frame from
there. -/
theorem initThenFlushOffersTheBackground : Obligations.InitThenFlushOffersTheBackground := by
  intro s v w rest hidle hhost hop hflush
  have hwrite := (cycle_of_accept hhost hidle).trans (exec_decode_of_init_or_fill hop _)
  obtain ⟨t, hstep, hbusy, hvalid, hbyte⟩ :=
    step_of_flush_of_written (s := setErr .ok (writeVoxels allVoxels (colOf v) { s with host := .offer w :: rest }))
      ⟨⟨rest, rfl⟩, hidle⟩ hflush (fun i => by simp [allVoxels])
  have hrun : core.run 2 s = .next t := (run_of_next 1 hwrite).trans (run_of_next 0 hstep)
  rw [setErr_fb, writeVoxels_voxel allVoxels _ _ 0 (by omega), if_pos (show allVoxels 0 = true from rfl)] at hbyte
  exact ⟨t, hrun, hbusy, hvalid, hbyte⟩

/-! ### The cycle with rst = 1 -/

/-- With rst = 1 the block neither accepts a command nor offers a byte, whatever STATUS and TX_VALID hold (R230). -/
theorem not_ready_nor_valid_of_rst {s : State} {rest : List HostMove} (h : s.host = .rst :: rest) :
    cmdReadyOut s = false ∧ txValidOut s = false := by
  simp [cmdReadyOut, txValidOut, rstIn, h]

/-- Settles O2: the step of that cycle resets every state element and, of the environment's lists, uses up the host's move alone. -/
theorem resetCycleFromAnyState : Obligations.ResetCycleFromAnyState := by
  intro s rest hhost
  obtain ⟨hready, hvalid⟩ := not_ready_nor_valid_of_rst hhost
  exact ⟨hready, hvalid, _, cycle_of_rst hhost, rfl, rfl, rfl, rfl, rfl, fun i hi => by simp, rfl, rfl, rfl, rfl⟩

end Sys2Proof.Machine
end
